-- ==== Sys2Proof/Word.lean ====
section
/-! DEFINITION. The bit-vector types of the model and their plainest arithmetic (00_scope section 4). -/

namespace Sys2Proof

abbrev Byte := BitVec 8
abbrev Half := BitVec 16
abbrev Word := BitVec 32

/-- A headset time: a free-running count of microseconds modulo 2^32. -/
abbrev Time := Word

/-- The difference of two headset times, counts or angles, taken modulo 2^32 and read as signed. -/
def signedDiff (later earlier : Word) : Int := (later - earlier).toInt

/-- A value clamped to a range: below it the lower bound, above it the upper bound. -/
def clamp (lo hi v : Int) : Int := max lo (min hi v)

/-- One value for each of yaw, pitch and roll. -/
structure Axes (α : Type) where
  yaw : α
  pitch : α
  roll : α
  deriving DecidableEq, Repr

/-- One value for each sensor axis. -/
structure Xyz (α : Type) where
  x : α
  y : α
  z : α
  deriving DecidableEq, Repr

end Sys2Proof
end

