-- ==== Sys2Proof/Config.lean ====
section
/-! DEFINITION. The numbers the spec fixes for the part, and the free values it leaves open. -/

namespace Sys2Proof.Config

/-- 512 MiB of local DRAM, addresses 0 to 0x1FFF_FFFF (00_scope section 4). -/
def dramSize : Nat := 0x20000000

/-- The most requests the inbound queue holds (R6). -/
def queueLimit : Nat := 64
/-- The queue count at which HOLD is sent (R12). -/
def holdCount : Nat := 48
/-- The queue count at which RESUME is sent (R13). -/
def resumeCount : Nat := 16
/-- The most refusal answers that wait upstream (R16). -/
def refusalLimit : Nat := 32
/-- The most ATTENTION messages that wait upstream (R16). -/
def attentionLimit : Nat := 8
/-- Notices the queue holds (R169). -/
def noticeLimit : Nat := 64
/-- Records of the command ring (section 2.3). -/
def ringRecords : Nat := 32
/-- Copy jobs the queue holds (R126). -/
def jobLimit : Nat := 4
/-- Records the publication list holds (R66). -/
def publicationLimit : Nat := 8
/-- Records the pose history holds (R70). -/
def historyLimit : Nat := 64
/-- The most bytes one access moves (R18). -/
def accessLimit : Nat := 256

/-- The stall timer's run, in microseconds (R56). -/
def stallTime : Word := 20000
/-- The panel rail ramp, in microseconds (section 5). -/
def rampTime : Word := 20000
/-- The status timer's period, in microseconds (R175). -/
def statusPeriod : Word := 10000
/-- The block boundary and power sample period, in microseconds (R137, R158). -/
def millisecond : Word := 1000
/-- Stereo frames of one block (R137). -/
def blockFrames : Nat := 48

/-- What a byte of DRAM holds before anything has written it: the boot load leaves DRAM outside the Anchor Block
holding whatever it held (R26). A free value, log entry 6. -/
opaque unwrittenByte : Nat → Byte

/-- The count drawn where R156 measures by a ring length and no layout is applied. A free value, log entry 23. -/
opaque freeCount : Nat → Word

end Sys2Proof.Config
end

