-- ==== Sys2Proof/Syntax.lean ====
section
/-! DEFINITION. The steps of the part: one constructor for each row of spec/opcode_table.json, in its order. Each carries the
headset time at which it happens and what comes from outside the part (log entry 1). -/

namespace Sys2Proof

/-- One stereo frame of the serial audio port: two signed 16-bit samples. -/
structure Frame where
  left : Half
  right : Half
  deriving DecidableEq, Repr

/-- The six values a read exchange returns (R48), signed 16-bit. -/
structure SensorReading where
  gyro : Xyz Half
  accel : Xyz Half
  deriving DecidableEq, Repr

/-- One answer of the rail monitor: millivolts and milliamperes (R158). -/
structure MonitorReading where
  milliVolts : Nat
  milliAmps : Nat
  deriving DecidableEq, Repr

/-- The boot record in the serial flash (R28): marker word, length word and the settings block. -/
structure FlashRecord where
  marker : Word
  length : Word
  block : List Byte
  deriving DecidableEq, Repr

/-- The steps. -/
inductive Instr where
  | powerOn
  | bootRecordRead (t : Time) (flash : Option FlashRecord)
  | bootLoadComplete (t : Time)
  | linkUp (t : Time)
  | linkDown (t : Time)
  | badMessage (t : Time)
  | write (t : Time) (addr : Word) (len : Half) (data : List Byte)
  | read (t : Time) (addr : Word) (len : Half) (tag : Byte)
  | timeMark (t : Time) (markId : Byte) (consoleTime : BitVec 64)
  | requestTake (t : Time)
  | inboundWriteDone (t : Time)
  | inboundReadDone (t : Time)
  | upstreamMessageSent (t : Time)
  | commandProducer (t : Time)
  | noticeConsumer (t : Time)
  | poseHold (t : Time)
  | playbackProducer (t : Time)
  | captureConsumer (t : Time)
  | cueRequest (t : Time)
  | submitWord (t : Time)
  | commandConsumerWriteDone (t : Time)
  | unknownCommand (t : Time)
  | applyLayout (t : Time)
  | layoutTableRead (t : Time)
  | restart (t : Time)
  | displayStart (t : Time)
  | displayStop (t : Time)
  | setEyeTrim (t : Time)
  | motionStart (t : Time)
  | motionStop (t : Time)
  | setGyroBias (t : Time)
  | playbackStart (t : Time)
  | playbackStop (t : Time)
  | setVolume (t : Time)
  | captureStart (t : Time)
  | captureStop (t : Time)
  | copy (t : Time)
  | fill (t : Time)
  | abortCopy (t : Time)
  | powerGrant (t : Time)
  | powerCeiling (t : Time)
  | setAttentionMask (t : Time)
  | dataReady (t : Time)
  | sensorReadDone (t : Time) (reading : SensorReading)
  | sensorExchangeDone (t : Time)
  | stallTimerExpiry (t : Time)
  | motionGrant (t : Time)
  | poseRingWritten (t : Time)
  | exchangeRecordWriteDone (t : Time)
  | rampTimerExpiry (t : Time)
  | frameBoundary (t : Time)
  | consoleHalfReadDone (t : Time)
  | scanRowDue (t : Time)
  | litIntervalStart (t : Time)
  | litIntervalEnd (t : Time)
  | copyGrant (t : Time)
  | copyReadDone (t : Time)
  | copyWriteDone (t : Time)
  | blockBoundary (t : Time)
  | cueEntryRead (t : Time)
  | captureRecordWriteDone (t : Time)
  | powerSample (t : Time) (reading : Option MonitorReading)
  | housekeepingGrant (t : Time)
  | noticeEntryWriteDone (t : Time)
  | noticeProducerWriteDone (t : Time)
  | statusTimerExpiry (t : Time)
  | bootWriteDone (t : Time)
  | partHalfWriteDone (t : Time)
  | restartWriteDone (t : Time)
  | statusBlockWriteDone (t : Time)
  | motionAccessDone (t : Time)
  | scanAccessDone (t : Time)
  | audioGrant (t : Time)
  | audioAccessDone (t : Time)
  | codecFrame (t : Time) (mic : Frame)
  deriving DecidableEq, Repr

end Sys2Proof
end

