-- ==== Sys2Proof/WellFormed.lean ====
section
/-! DEFINITION. Which steps are well formed: the form R2 asks of a WRITE and a READ message, and the size of the settings block
of a boot record (R28). -/

namespace Sys2Proof

/-- The length of a request: a multiple of 4 from 4 to 256 (R2). -/
def lengthOk (len : Half) : Bool := len.toNat % 4 == 0 && 4 ≤ len.toNat && len.toNat ≤ Config.accessLimit

/-- The form of a WRITE message (R2): address and length aligned, and as much data as its length. -/
def writeOk (addr : Word) (len : Half) (data : List Byte) : Bool :=
  addr.toNat % 4 == 0 && lengthOk len && data.length == len.toNat

/-- The form of a READ message (R2): address and length aligned, tag 0 to 31. -/
def readOk (addr : Word) (len : Half) (tag : Byte) : Bool :=
  addr.toNat % 4 == 0 && lengthOk len && tag.toNat < 32

/-- The settings block of a boot record is 192 bytes long (R28). -/
def flashOk (flash : Option FlashRecord) : Bool := flash.all fun r => r.block.length == 192

/-- A step is well formed. A WRITE or READ that is not is treated as R2 says (log entry 33). -/
def Instr.wellFormed : Instr → Bool
  | .write _ addr len data => writeOk addr len data
  | .read _ addr len tag => readOk addr len tag
  | .bootRecordRead _ flash => flashOk flash
  | .powerOn | .bootLoadComplete _ | .linkUp _ | .linkDown _ | .badMessage _ | .timeMark _ _ _ | .requestTake _
  | .inboundWriteDone _ | .inboundReadDone _ | .upstreamMessageSent _ | .commandProducer _ | .noticeConsumer _
  | .poseHold _ | .playbackProducer _ | .captureConsumer _ | .cueRequest _ | .submitWord _
  | .commandConsumerWriteDone _ | .unknownCommand _ | .applyLayout _ | .layoutTableRead _ | .restart _
  | .displayStart _ | .displayStop _ | .setEyeTrim _ | .motionStart _ | .motionStop _ | .setGyroBias _
  | .playbackStart _ | .playbackStop _ | .setVolume _ | .captureStart _ | .captureStop _ | .copy _ | .fill _
  | .abortCopy _ | .powerGrant _ | .powerCeiling _ | .setAttentionMask _ | .dataReady _ | .sensorReadDone _ _
  | .sensorExchangeDone _ | .stallTimerExpiry _ | .motionGrant _ | .poseRingWritten _
  | .exchangeRecordWriteDone _ | .rampTimerExpiry _ | .frameBoundary _ | .consoleHalfReadDone _ | .scanRowDue _
  | .litIntervalStart _ | .litIntervalEnd _ | .copyGrant _ | .copyReadDone _ | .copyWriteDone _
  | .blockBoundary _ | .cueEntryRead _ | .captureRecordWriteDone _ | .powerSample _ _ | .housekeepingGrant _
  | .noticeEntryWriteDone _ | .noticeProducerWriteDone _ | .statusTimerExpiry _ | .bootWriteDone _
  | .partHalfWriteDone _ | .restartWriteDone _ | .statusBlockWriteDone _ | .motionAccessDone _ | .scanAccessDone _
  | .audioGrant _ | .audioAccessDone _ | .codecFrame _ _ => true

end Sys2Proof
end

