-- ==== Sys2Proof/Decode.lean ====
section
/-! DEFINITION. Words and messages to steps. The table gives no row any bits, so no word spells a step. A tether message, as
the link hands it over less its CRC, spells a WRITE, READ or TIME_MARK, or is bad (R2, section 11.2). -/

namespace Sys2Proof

/-- spec/opcode_table.json gives its rows no bits: no word spells a step. -/
def decodeTableWord (_nbits _w : Nat) : Option Instr := none

/-- The number a little-endian run of bytes spells (00_scope section 4). -/
def leValue : List Byte → Nat
  | [] => 0
  | b :: rest => b.toNat + 256 * leValue rest

/-- The number of `n` bytes at offset `off` of a record; a byte past its end counts 0. -/
def fieldAt (bytes : List Byte) (off n : Nat) : Nat := leValue ((bytes.drop off).take n)

/-- The step a downstream message is (R2, R178, section 11.2): its bytes before the CRC, and the link's result of the check.
Unassigned bytes are ignored. A message too short for its layout, and a READ or TIME_MARK longer than it, is bad: the model's
choice, log entry 43. -/
def decodeMessage (t : Time) (crcOk : Bool) (bytes : List Byte) : Instr :=
  let len := BitVec.ofNat 16 (fieldAt bytes 2 2)
  let addr := BitVec.ofNat 32 (fieldAt bytes 4 4)
  let tag := BitVec.ofNat 8 (fieldAt bytes 1 1)
  if !crcOk then .badMessage t
  else if fieldAt bytes 0 1 = 0x01 ∧ 8 ≤ bytes.length then
    if writeOk addr len (bytes.drop 8) then .write t addr len (bytes.drop 8) else .badMessage t
  else if fieldAt bytes 0 1 = 0x02 ∧ bytes.length = 8 then
    if readOk addr len tag then .read t addr len tag else .badMessage t
  else if fieldAt bytes 0 1 = 0x03 ∧ bytes.length = 12 then
    .timeMark t tag (BitVec.ofNat 64 (fieldAt bytes 4 8))
  else .badMessage t

end Sys2Proof
end

