-- ==== Sys2Proof/Machine/Types.lean ====
section
/-! DEFINITION. The types of the machine's pieces of state: records, messages, notices, accesses and block states. -/

namespace Sys2Proof.Machine

/-! ### Memory and boot settings -/

/-- The local DRAM: the bytes something has written, addresses strictly rising (log entry 6). -/
abbrev Memory := List Host.Cell

/-- A sensor output rate: 500, 1000 or 2000 Hz (R50). -/
inductive Rate where
  | hz500
  | hz1000
  | hz2000
  deriving DecidableEq, Repr

/-- A source axis of the sensor (R30). -/
inductive Source where
  | x
  | y
  | z
  deriving DecidableEq, Repr

/-- The axis map's entry for one of yaw, pitch and roll: source and sign (R30). -/
structure AxisSource where
  source : Source
  negative : Bool
  deriving DecidableEq, Repr

/-- One entry of the power level table (R30). -/
structure LevelCaps where
  lit : Nat
  gain : Nat
  rate : Rate
  deriving DecidableEq, Repr

/-- Left and right eye trims in pixels (R29). -/
structure Trims where
  left : Int
  right : Int
  deriving DecidableEq, Repr

/-- The boot settings in force (R29). -/
structure Settings where
  panelWidth : Nat
  panelHeight : Nat
  framePeriod : Nat
  litOffset : Nat
  guardX : Nat
  guardY : Nat
  kx : Nat
  ky : Nat
  trims : Trims
  axisMap : Axes AxisSource
  bias : Axes Half
  defaultGrant : Nat
  undervoltage : Nat
  levels : Vector LevelCaps 8
  deriving DecidableEq, Repr

/-- Where the boot settings came from (R27, R28). -/
inductive BootSource where
  | flash
  | defaults
  deriving DecidableEq, Repr

/-- A region of the applied layout: base and size word (R32). -/
structure Region where
  base : Nat
  size : Nat
  deriving DecidableEq, Repr

/-- The HKU's applied copy of the region table (R35). -/
structure Layout where
  frameArea : Region
  poseRing : Region
  playback : Region
  capture : Region
  deriving DecidableEq, Repr

/-! ### Notices (chapter 10, section 11.6) -/

/-- Why a command is refused (R40). -/
inductive Reason where
  | unknown
  | badParam
  | notIdle
  | badLayout
  | noLayout
  | busy
  | notRunning
  | queueFull
  | protectedRange
  | targetBusy
  | noSuchJob
  deriving DecidableEq, Repr

/-- The faults of a region table entry (R34). -/
inductive LayoutFault where
  | size
  | align
  | outside
  | anchor
  | overlap
  deriving DecidableEq, Repr

inductive CueMode where
  | mix
  | duck
  deriving DecidableEq, Repr

/-- The faults of a cue table entry (R148). -/
inductive CueFault where
  | length
  | align
  | range
  deriving DecidableEq, Repr

/-- Where a display stop took effect (R100). -/
inductive StopWhere where
  | ramp
  | boundary
  deriving DecidableEq, Repr

/-- Why the power level changed (R168). -/
inductive LevelCause where
  | over
  | under
  | ceiling
  deriving DecidableEq, Repr

inductive JobKind where
  | copy
  | fill
  deriving DecidableEq, Repr

inductive JobOutcome where
  | complete
  | aborted
  deriving DecidableEq, Repr

/-- A notice: its kind with the items the posting rule names (section 10.2). -/
inductive Notice where
  | cmdRefused (reason : Reason) (layoutFault : Option (Nat × LayoutFault)) (ringIndex : Word) (code tag : Half)
  | commandsLost (skipped consumer : Word)
  | restarted (ringIndex : Word) (tag : Half)
  | refusedWrite (bytes : Nat) (addr : Word)
  | outOfRangeWrite (len : Nat) (addr : Word)
  | timeMark (markId : Byte) (consoleTime : BitVec 64)
  | frameSkipped (slot : Fin 4) (submitValue : Word)
  | contentLost (slot : Fin 4) (shown : Nat)
  | contentResumed (slot : Fin 4) (submitValue : Word)
  | poseStale (slot : Fin 4) (submitValue sought : Word)
  | displayStopped (stopAt : StopWhere) (flushed : Nat)
  | sensorStall (started : Time)
  | sensorResumed (sampleTime : Time)
  | poseRingHalf (position : Nat) (sequence : Word)
  | poseRingWrap (position : Nat) (sequence : Word)
  | playbackStarved (consumer available : Word)
  | playbackOverrun (skipped consumer : Word)
  | cueDone (index : Fin 4) (mode : CueMode) (length : Nat)
  | cueReplaced (index : Fin 4) (mode : CueMode)
  | cueRefused (index : Fin 4) (mode : CueMode) (fault : CueFault)
  | captureHalf (position : Nat) (sequence : Word)
  | captureWrap (position : Nat) (sequence : Word)
  | captureOverflow (sequence : Word)
  | powerLevelChanged (before after : Fin 8) (cause : LevelCause) (average : Nat)
  | undervoltage (before : Fin 8) (milliVolts milliAmps : Nat)
  | copyDone (kind : JobKind) (outcome : JobOutcome) (tag : Half) (bytes : Nat)
  deriving DecidableEq, Repr

/-- A notice that has been given a place: position 0 to 63, headset time, content (R169). -/
structure Posted where
  position : Nat
  time : Time
  notice : Notice
  deriving DecidableEq, Repr

/-! ### Motion (chapters 3 and 4) -/

inductive MotionState where
  | off
  | running
  | stalled
  deriving DecidableEq, Repr

/-- The flags gathered for a pose record (R55). -/
structure PoseFlags where
  gap : Bool
  saturated : Bool
  afterStall : Bool
  deriving DecidableEq, Repr

/-- A pose record (R65, R179): `accel` holds the record's form, a publication flag in bit 0 of each field. -/
structure PoseRecord where
  sequence : Word
  time : Time
  angles : Axes Word
  rates : Axes Half
  accel : Xyz Half
  deriving DecidableEq, Repr

/-- An exchange with the sensor in progress (R48). A read holds its sample time and whether its sample is still wanted. -/
inductive Exchange where
  | config (rate : Rate)
  | read (sampleTime : Time) (wanted : Bool)
  | rate (rate : Rate)
  | stop
  deriving DecidableEq, Repr

/-- What the exchanges completed so far have set in the sensor (R48, log entry 15). -/
inductive SensorSetting where
  | unconfigured
  | measuring (rate : Rate)
  | idle
  deriving DecidableEq, Repr

/-- The answer to a prediction request (R62, R63): the motion state, and the predicted angles unless it is OFF. -/
structure Prediction where
  motion : MotionState
  angles : Option (Axes Word)
  deriving DecidableEq, Repr

/-- EX0 or EX1 (R72). -/
inductive Ex where
  | ex0
  | ex1
  deriving DecidableEq, Repr

/-! ### Audio (chapter 8) -/

inductive PlaybackState where
  | stopped
  | priming
  | playing
  deriving DecidableEq, Repr

/-- What a waiting or granted audio access does (R138). A capture record holds its bytes, sequence and position, and the ring
length it was recorded against. -/
inductive AudioWork where
  | cueEntry (index : Fin 4) (mode : CueMode)
  | cueData (addr frames : Nat) (mono : Bool)
  | playRead (addr frames : Nat)
  | playConsumer
  | captureRecord (addr : Nat) (bytes : List Byte) (sequence : Word) (position ringLength : Nat)
  | captureProducer
  deriving DecidableEq, Repr

/-- An audio access with its marks: `late` once the block it reads for is over, `stopping` when it was presented at the block
boundary that stopped a stream (R33). -/
structure AudioAccess where
  work : AudioWork
  late : Bool
  stopping : Bool
  deriving DecidableEq, Repr

/-- The current cue (R148). -/
structure Cue where
  index : Fin 4
  mode : CueMode
  addr : Nat
  length : Nat
  mono : Bool
  played : Nat
  deriving DecidableEq, Repr

/-- The block being sent to the codec (R137, R150): the frames read so far of the main stream and of the cue. -/
structure Block where
  sent : Nat
  main : List Frame
  cue : List Frame
  duck : Bool
  gain : Nat
  deriving DecidableEq, Repr

/-- The capture block in gathering (R154). -/
structure Gathering where
  time : Time
  frames : List Frame
  deriving DecidableEq, Repr

/-! ### Display (chapters 5 and 6) -/

inductive SlotState where
  | free
  | waiting
  | queued
  | showing
  deriving DecidableEq, Repr

inductive SlotOutcome where
  | none
  | shown
  | skipped
  | flushed
  deriving DecidableEq, Repr

inductive DisplayState where
  | off
  | powering
  | blank
  | showing
  deriving DecidableEq, Repr

inductive Eye where
  | left
  | right
  deriving DecidableEq, Repr

/-- A colour: red, green and blue (R89). -/
structure Rgb where
  red : Byte
  green : Byte
  blue : Byte
  deriving DecidableEq, Repr

/-- The console-half values of a slot (R85). -/
structure ConsoleHalf where
  frameNumber : Word
  poseSequence : Word
  noShift : Bool
  deriving DecidableEq, Repr

/-- The outcome flags of a part half (R86). -/
structure OutcomeFlags where
  clampedX : Bool
  clampedY : Bool
  poseStale : Bool
  repeated : Bool
  noPose : Bool
  deriving DecidableEq, Repr

/-- The three shifts of a showing (R112). -/
structure Shift where
  left : Int
  right : Int
  vertical : Int
  deriving DecidableEq, Repr

/-- The slot record of the FCU (R80, R86). -/
structure Slot where
  state : SlotState
  copyPending : Nat
  shown : Nat
  submitValue : Word
  half : Option ConsoleHalf
  headerDue : Bool
  firstShown : Time
  flags : OutcomeFlags
  outcome : SlotOutcome
  shift : Shift
  deriving DecidableEq, Repr

/-- The shift results of the SSU (R113). -/
structure ShiftResults where
  shift : Shift
  clampedX : Bool
  clampedY : Bool
  poseStale : Bool
  noPose : Bool
  deriving DecidableEq, Repr

/-- What the panels show (R121). -/
inductive PanelOutput where
  | dark
  | fill
  | image (slot : Fin 4)
  deriving DecidableEq, Repr

/-- The scan-out of a frame (R116, R117): slot and its base, window origins, next row, eye and bytes of the window row read. -/
structure Scan where
  slot : Fin 4
  base : Nat
  columnLeft : Nat
  columnRight : Nat
  originRow : Nat
  row : Nat
  eye : Eye
  done : Nat
  deriving DecidableEq, Repr

/-- A frame of a panel port (R118 to R120): the slot pixels sent, and so many pixels of one colour behind them. -/
structure PanelFrame where
  pixels : List Rgb
  fill : Nat
  colour : Rgb
  deriving DecidableEq, Repr

/-- A panel port (R118, R119): the frame in progress, and the frame last ended (log entry 17). -/
structure PanelPort where
  frame : Option PanelFrame
  ended : Option PanelFrame
  deriving DecidableEq, Repr

/-! ### Copy engine (chapter 7) -/

/-- A job record (R127): latched parameters, direction, slot marks, aborting flag. A FILL has no source. -/
structure Job where
  tag : Half
  kind : JobKind
  source : Nat
  dest : Nat
  rowBytes : Nat
  rows : Nat
  sourceStride : Nat
  destStride : Nat
  pattern : Word
  descending : Bool
  marks : List (Fin 4)
  aborting : Bool
  deriving DecidableEq, Repr

/-- The progress of the running job (R129). -/
structure Progress where
  rowsDone : Nat
  bytesDone : Nat
  held : Option (List Byte)
  written : Nat
  deriving DecidableEq, Repr

/-! ### Tether and DRAM port (chapter 1) -/

inductive LinkState where
  | down
  | up
  deriving DecidableEq, Repr

inductive FlowState where
  | running
  | held
  deriving DecidableEq, Repr

/-- A request in the inbound queue (R7). -/
inductive Request where
  | write (addr : Word) (len : Nat) (data : List Byte)
  | read (addr : Word) (len : Nat) (tag : Fin 32)
  deriving DecidableEq, Repr

inductive TagState where
  | free
  | outstanding
  deriving DecidableEq, Repr

/-- The outcome of a READ_DATA (section 1.1). -/
inductive ReadOutcome where
  | ok
  | refusedFull
  | tagInUse
  | outOfRange
  deriving DecidableEq, Repr

/-- A message in the upstream order (R15). -/
inductive Upstream where
  | readData (tag : Fin 32) (outcome : ReadOutcome) (data : List Byte)
  | attention (position : Nat) (kind : Nat)
  deriving DecidableEq, Repr

/-- A flow message (R15). -/
inductive FlowMessage where
  | hold
  | resume
  deriving DecidableEq, Repr

/-- What is being transmitted upstream: the head of the flow messages or the head of the upstream order (R15). -/
inductive Sending where
  | flow
  | order
  deriving DecidableEq, Repr

/-- A watched word (R24). -/
inductive Watched where
  | commandProducer
  | noticeConsumer
  | poseHold
  | playbackProducer
  | captureConsumer
  | cueRequest
  | submit (slot : Fin 4)
  deriving DecidableEq, Repr

/-- The clients of the DRAM Port (R19). -/
inductive Client where
  | scanOut
  | audio
  | inbound
  | motion
  | housekeeping
  | copy
  deriving DecidableEq, Repr

/-- The accesses a RESTART taking makes (R42, R44, R45). A slot write holds the three bytes read beside the state. -/
inductive RestartStep where
  | slotRead (slot : Fin 4)
  | slotWrite (slot : Fin 4) (rest : List Byte)
  | words
  | notices (quarter : Fin 4)
  deriving DecidableEq, Repr

/-- What an access is for. -/
inductive AccessKind where
  | consoleHalf (slot : Fin 4)
  | pixels (eye : Eye)
  | audio (a : AudioAccess)
  | inboundWrite (watched : List (Watched × Nat))
  | inboundRead (tag : Fin 32)
  | exchangeReset
  | ringRestart
  | indicator
  | exchangeRecord (r : PoseRecord) (into : Ex)
  | ringRecord
  | ringControl (r : PoseRecord)
  | bootIdentity
  | bootFields
  | bootSettings
  | bootZero (k : Fin 15)
  | restart
  | noticeEntry
  | noticeProducer (written : Word)
  | partHalf (slot : Fin 4)
  | statusFirst
  | statusSecond
  | commandConsumer
  | layoutTable
  | copyRead
  | copyWrite
  deriving DecidableEq, Repr

/-- What an access moves: a read of so many bytes, or a write, byte by byte; a refused byte is absent (R18, R20). -/
inductive Transfer where
  | read (len : Nat)
  | write (bytes : List (Option Byte))
  deriving DecidableEq, Repr

/-- One access of the DRAM Port. `live` is cleared when its owner drops what the access was for: it then only completes
(log entry 16). -/
structure Access where
  kind : AccessKind
  addr : Nat
  transfer : Transfer
  live : Bool
  deriving DecidableEq, Repr

/-- The request in service (R8): its access presented, at the port, or its watched-word events being raised in order. -/
inductive Service where
  | idle
  | presented (a : Access)
  | atPort
  | raising (events : List (Watched × Word))
  deriving DecidableEq, Repr

/-! ### Housekeeping (chapters 2 and 10) -/

inductive PartState where
  | booting
  | ready
  deriving DecidableEq, Repr

/-- A command record as read (R37). -/
structure Record where
  code : Half
  tag : Half
  bytes : List Byte
  deriving DecidableEq, Repr

/-- Where the HKU stands with a command (R37): between records, taking one it has read, or taking an APPLY_LAYOUT or a RESTART
over several accesses. -/
inductive CommandWork where
  | idle
  | taking (r : Record)
  | tableDue (r : Record)
  | tableReading (r : Record)
  | halves (left : List (Fin 4))
  | restarting (left : List RestartStep)
  deriving DecidableEq, Repr

/-- The counters of the status block (R176). -/
structure Counters where
  framesShown : Word
  repeated : Word
  skipped : Word
  contentLost : Word
  refusedWrites : Word
  overrunWrites : Word
  outOfRangeWrites : Word
  linkErrors : Word
  underruns : Word
  droppedBlocks : Word
  noticesLost : Word
  deriving DecidableEq, Repr

/-! ### The blocks -/

structure Tiu where
  link : LinkState
  flow : FlowState
  queue : List Request
  service : Service
  tags : Vector TagState 32
  order : List Upstream
  flowOut : List FlowMessage
  sending : Option Sending
  deriving DecidableEq, Repr

structure Fcu where
  slots : Vector Slot 4
  queue : List (Fin 4)
  display : DisplayState
  stopPending : Bool
  repeatLimit : Nat
  litRequest : Nat
  fill : Rgb
  contentLost : Bool
  ramp : Option Time
  boundary : Option Time
  deriving DecidableEq, Repr

structure Ssu where
  boundaryTime : Time
  lit : Nat
  trims : Trims
  requested : Option Trims
  results : ShiftResults
  stale : Bool
  output : PanelOutput
  chosen : Option (Fin 4)
  rowsDue : Nat
  scan : Option Scan
  litInterval : Bool
  left : PanelPort
  right : PanelPort
  deriving DecidableEq, Repr

/-- The sensor port (R48, R49). -/
structure SensorPort where
  busy : Option Exchange
  stopWaiting : Bool
  configWaiting : Bool
  rateWaiting : Option Rate
  ready : Option Time
  setting : SensorSetting
  deriving DecidableEq, Repr

/-- The pose exchange state (R72). -/
structure PoseExchange where
  front : Ex
  frontSeq : Word
  backSeq : Word
  missed : Bool
  hold : Bool
  resetDue : Bool
  indicatorDue : Bool
  deriving DecidableEq, Repr

/-- The publication state of the MU (chapter 4). `headGranted` and `headWritten` say how far the ring writes of the head of
the list have come (R66, R68). -/
structure Publication where
  nextSeq : Option Word
  list : List PoseRecord
  headGranted : Bool
  headWritten : Bool
  history : List PoseRecord
  pending : Option PoseRecord
  exchange : PoseExchange
  ringRestartDue : Bool
  deriving DecidableEq, Repr

structure Mu where
  motion : MotionState
  angles : Axes Word
  remainders : Axes Nat
  rates : Axes Half
  accel : Xyz Half
  lastTime : Time
  bias : Axes Half
  commanded : Rate
  inUse : Rate
  former : Rate
  rateChanged : Bool
  decimation : Nat
  samples : Nat
  first : Bool
  gathered : PoseFlags
  stall : Option Time
  sensor : SensorPort
  pub : Publication
  deriving DecidableEq, Repr

structure Au where
  playback : PlaybackState
  playbackStop : Bool
  producer : Word
  consumer : Word
  threshold : Nat
  volume : Nat
  requestedVolume : Option Nat
  cue : Option Cue
  pendingCue : Option (Fin 4 × CueMode)
  startingCue : Option (Fin 4 × CueMode)
  capturing : Bool
  captureStop : Bool
  captureProducer : Word
  captureConsumer : Word
  captureSeq : Word
  gathering : Option Gathering
  overflow : Bool
  waiting : List AudioAccess
  block : Block
  output : Frame
  nextBoundary : Option Time
  deriving DecidableEq, Repr

structure Pu where
  level : Fin 8
  ceiling : Fin 8
  grant : Nat
  requested : Option Nat
  accumulator : Nat
  sampleCount : Nat
  lastAverage : Nat
  overCount : Nat
  underCount : Nat
  hold : Nat
  rail : Bool
  nextSample : Option Time
  deriving DecidableEq, Repr

structure Ce where
  jobs : List Job
  progress : Progress
  paused : Bool
  deriving DecidableEq, Repr

structure Hku where
  part : PartState
  flashDue : Bool
  source : Option BootSource
  adjusted : Bool
  settings : Settings
  layout : Option Layout
  consumer : Word
  latest : Word
  compareDue : Bool
  work : CommandWork
  consumerDue : Bool
  noticeProducer : Word
  noticeWritten : Word
  noticeShown : Word
  noticeConsumer : Word
  writeList : List Posted
  unshown : List (Nat × Nat)
  attentionMask : Word
  statusTimer : Option Time
  statusDue : Bool
  statusRest : Option (List Byte)
  statusCount : Word
  permit : Bool
  counters : Counters
  deriving DecidableEq, Repr

end Sys2Proof.Machine
end

