-- ==== Sys2Proof/Machine/Settings.lean ====
section
/-! DEFINITION. The default boot settings (R29, R30), the sizes that follow from the settings in force (R31), and the values of
the boot load's first step. -/

namespace Sys2Proof.Machine

/-- The default power level table, level 0 first (R30). -/
def defaultLevels : Vector LevelCaps 8 :=
  #v[⟨500, 4125, .hz500⟩, ⟨800, 8231, .hz500⟩, ⟨1000, 11627, .hz1000⟩, ⟨1200, 16423, .hz1000⟩,
    ⟨1400, 20675, .hz1000⟩, ⟨1600, 26029, .hz1000⟩, ⟨1800, 32768, .hz2000⟩, ⟨2000, 32768, .hz2000⟩]

/-- The default axis map: yaw from Z, pitch from X, roll from Y, all positive (R29). -/
def defaultAxisMap : Axes AxisSource := ⟨⟨.z, false⟩, ⟨.x, false⟩, ⟨.y, false⟩⟩

/-- The default settings (R29). -/
def defaultSettings : Settings where
  panelWidth := 1440
  panelHeight := 1600
  framePeriod := 11111
  litOffset := 1800
  guardX := 48
  guardY := 32
  kx := 0x1A80
  ky := 0x1A80
  trims := ⟨0, 0⟩
  axisMap := defaultAxisMap
  bias := ⟨0, 0, 0⟩
  defaultGrant := 4500
  undervoltage := 4400
  levels := defaultLevels

/-- Ws: the width of an eye source (R31). -/
def Settings.sourceWidth (c : Settings) : Nat := c.panelWidth + 2 * c.guardX

/-- Hs: the height of an eye source (R31). -/
def Settings.sourceHeight (c : Settings) : Nat := c.panelHeight + 2 * c.guardY

/-- The slot size: header and pixels, rounded up to a multiple of 256 (R31). -/
def Settings.slotSize (c : Settings) : Nat :=
  (64 + c.sourceHeight * 8 * c.sourceWidth + 255) / 256 * 256

/-- The caps of a power level (R30). -/
def Settings.caps (c : Settings) (level : Fin 8) : LevelCaps := c.levels[level]

/-- `n` bytes of a number, least significant first (00_scope section 4). -/
def leBytes : Nat → Nat → List Byte
  | 0, _ => []
  | n + 1, v => BitVec.ofNat 8 (v % 256) :: leBytes n (v / 256)

/-- The identification record (R27, section 11.3) with a boot source code and a settings-adjusted flag. -/
def identityBytes (source adjusted : Nat) : List Byte :=
  leBytes 2 0x0D37 ++ leBytes 2 0x7120 ++ leBytes 2 1 ++ leBytes 2 0 ++ leBytes 4 Config.dramSize ++ leBytes 1 source
    ++ leBytes 1 adjusted ++ List.replicate 50 0

/-- The boot load's first access: the identification record with source and flag zero (R26 step 1). -/
def bootIdentityAccess : Access :=
  ⟨.bootIdentity, 0, .write ((identityBytes 0 0).map some), true⟩

end Sys2Proof.Machine
end

