-- ==== Sys2Proof/Machine/State.lean ====
section
/-! DEFINITION. The machine's state, why a step may stop, and the state right after power-on. -/

namespace Sys2Proof.Machine

/-- Why the machine stops with a fault. -/
inductive Fault where
  /-- Raised by a step that completes an access whose span leaves DRAM at the given address. The spec says no such address
  exists (00_scope section 4) and lets no such access begin, so no run from reset raises it. Safe: log entry 30. -/
  | outsideDram (addr : Nat)
  deriving DecidableEq, Repr

/-- Why a step has no meaning. -/
inductive Refusal where
  /-- Raised only by an arm of exec that has no meaning yet. There is none. Safe. -/
  | notModelled (mnemonic : String)
  deriving DecidableEq, Repr

/-- Everything the spec gives the part, and the queue of steps waiting. -/
structure State where
  now : Time
  mem : Memory
  port : Option Access
  tiu : Tiu
  fcu : Fcu
  ssu : Ssu
  mu : Mu
  au : Au
  pu : Pu
  ce : Ce
  hku : Hku
  freeIndex : Nat
  pending : List Instr
  deriving DecidableEq, Repr

/-- A slot record at power-on (R80). -/
def Slot.initial : Slot where
  state := .free
  copyPending := 0
  shown := 0
  submitValue := 0
  half := none
  headerDue := false
  firstShown := 0
  flags := ⟨false, false, false, false, false⟩
  outcome := .none
  shift := ⟨0, 0, 0⟩

/-- The shift results at power-on (R101). -/
def ShiftResults.initial : ShiftResults := ⟨⟨0, 0, 0⟩, false, false, false, false⟩

/-- The pose exchange state at power-on and after RESTART (R72, R78). -/
def PoseExchange.initial : PoseExchange := ⟨.ex0, 0, 0, false, false, false, false⟩

/-- Every counter of the status block zero (R176). -/
def Counters.zero : Counters := ⟨0, 0, 0, 0, 0, 0, 0, 0, 0, 0, 0⟩

/-- No progress of a copy job (R127). At power-on, where the spec gives no value, it is the model's choice (log entry 45). -/
def Progress.none : Progress := ⟨0, 0, .none, 0⟩

def Tiu.initial : Tiu := ⟨.down, .running, [], .idle, Vector.replicate 32 .free, [], [], none⟩

def Fcu.initial : Fcu :=
  ⟨Vector.replicate 4 Slot.initial, [], .off, false, 1, 2000, ⟨0, 0, 0⟩, false, none, none⟩

def Ssu.initial : Ssu :=
  ⟨0, 0, defaultSettings.trims, none, .initial, false, .dark, none, 0, none, false, ⟨none, none⟩, ⟨none, none⟩⟩

def Mu.initial : Mu where
  motion := .off
  angles := ⟨0, 0, 0⟩
  remainders := ⟨0, 0, 0⟩
  rates := ⟨0, 0, 0⟩
  accel := ⟨0, 0, 0⟩
  lastTime := 0
  bias := defaultSettings.bias
  commanded := .hz1000
  inUse := .hz1000
  former := .hz1000
  rateChanged := false
  decimation := 1
  samples := 0
  first := true
  gathered := ⟨false, false, false⟩
  stall := none
  sensor := ⟨none, false, false, none, none, .unconfigured⟩
  pub := ⟨some 1, [], false, false, [], none, .initial, false⟩

def Au.initial : Au where
  playback := .stopped
  playbackStop := false
  producer := 0
  consumer := 0
  threshold := 1
  volume := 32768
  requestedVolume := none
  cue := none
  pendingCue := none
  startingCue := none
  capturing := false
  captureStop := false
  captureProducer := 0
  captureConsumer := 0
  captureSeq := 0
  gathering := none
  overflow := false
  waiting := []
  block := ⟨0, [], [], false, 32768⟩
  output := ⟨0, 0⟩
  nextBoundary := none

def Pu.initial : Pu := ⟨7, 7, defaultSettings.defaultGrant, none, 0, 0, 0, 0, 0, 0, false, none⟩

def Hku.initial : Hku where
  part := .booting
  flashDue := false
  source := none
  adjusted := false
  settings := defaultSettings
  layout := none
  consumer := 0
  latest := 0
  compareDue := false
  work := .idle
  consumerDue := false
  noticeProducer := 0
  noticeWritten := 0
  noticeShown := 0
  noticeConsumer := 0
  writeList := []
  unshown := []
  attentionMask := 0
  statusTimer := none
  statusDue := false
  statusRest := none
  statusCount := 0
  permit := true
  counters := .zero

/-- The machine right after power-on (R26, R47, R88, R101, R124, R136, R157, chapter 10): every block in its power-on state, the
part BOOTING, headset time 0, the boot load's first write at the DRAM Port (log entry 5). -/
def State.reset : State where
  now := 0
  mem := []
  port := some bootIdentityAccess
  tiu := .initial
  fcu := .initial
  ssu := .initial
  mu := .initial
  au := .initial
  pu := .initial
  ce := ⟨[], .none, false⟩
  hku := .initial
  freeIndex := 0
  pending := []

end Sys2Proof.Machine
end

