-- ==== Sys2Proof/Machine/Ops.lean ====
section
/-! DEFINITION. The named operations every step is built from: memory, the DRAM Port, the upstream side of the tether, notices,
slots, the power level, the sensor port. -/

namespace Sys2Proof.Machine

/-- The three outcomes of a step of this machine. -/
abbrev Res := Host.Outcome State Fault Refusal

/-! ### Memory -/

/-- The byte something has written at an address, if any. -/
def Memory.get? : Memory → Nat → Option Byte
  | [], _ => none
  | (k, b) :: rest, a => if k = a then some b else Memory.get? rest a

/-- What a byte reads as: an unlisted one is a free value (log entry 6). -/
def Memory.read (m : Memory) (a : Nat) : Byte := (m.get? a).getD (Config.unwrittenByte a)

/-- Writes one byte, keeping the addresses strictly rising. -/
def Memory.set : Memory → Nat → Byte → Memory
  | [], a, b => [(a, b)]
  | (k, c) :: rest, a, b =>
    if a < k then (a, b) :: (k, c) :: rest
    else if a = k then (a, b) :: rest
    else (k, c) :: Memory.set rest a b

/-- Reads a run of bytes. -/
def Memory.readBytes (m : Memory) (a : Nat) : Nat → List Byte
  | 0 => []
  | n + 1 => m.read a :: m.readBytes (a + 1) n

/-- Writes a run of bytes; an absent one leaves memory as it was (R18). -/
def Memory.writeBytes : Memory → Nat → List (Option Byte) → Memory
  | m, _, [] => m
  | m, a, none :: rest => Memory.writeBytes m (a + 1) rest
  | m, a, some b :: rest => Memory.writeBytes (m.set a b) (a + 1) rest

/-- A little-endian word (00_scope section 4). -/
def Memory.word (m : Memory) (a : Nat) : Word := BitVec.ofNat 32 (leValue (m.readBytes a 4))

/-- The canonical form: addresses strictly rising, from a bound on, and inside DRAM. -/
def Memory.risingFrom : Nat → Memory → Bool
  | _, [] => true
  | lo, (k, _) :: rest => lo ≤ k && k < Config.dramSize && Memory.risingFrom (k + 1) rest

/-- Memory is in canonical form. Nothing listed equals what an unlisted address holds, which is nothing written. -/
def Memory.wf (m : Memory) : Bool := Memory.risingFrom 0 m

/-! ### Ranges -/

/-- Whether an address lies in a range of so many bytes. -/
def inRange (base size a : Nat) : Bool := base ≤ a && a < base + size

/-- Whether two ranges share a byte. -/
def sharesByte (b₁ n₁ b₂ n₂ : Nat) : Bool := max b₁ b₂ < min (b₁ + n₁) (b₂ + n₂)

/-! ### Regions and frame slots (R32, R80) -/

/-- The base of a frame slot. -/
def Layout.slotBase (l : Layout) (k : Fin 4) : Nat := l.frameArea.base + k.val * l.frameArea.size

/-- The address of a slot's header. A slot header is accessed only with a layout applied (R42, R85, R87). -/
def State.slotHeader (s : State) (k : Fin 4) : Nat := (s.hku.layout.map fun l => l.slotBase k).getD 0

/-- The capture ring's length, with a layout (R32). -/
def State.captureLength (s : State) : Option Nat := s.hku.layout.map fun l => l.capture.size

/-- The playback ring's length; 0 without a layout, when no stream runs (R140). -/
def State.playbackLength (s : State) : Nat := (s.hku.layout.map fun l => l.playback.size).getD 0

/-- Changes one slot record. -/
def Fcu.update (f : Fcu) (k : Fin 4) (g : Slot → Slot) : Fcu :=
  { f with slots := f.slots.set k (g f.slots[k]) }

/-- Changes one slot record of the machine. -/
def State.updateSlot (s : State) (k : Fin 4) (g : Slot → Slot) : State := { s with fcu := s.fcu.update k g }

/-- The slots in index order. -/
def allSlots : List (Fin 4) := [0, 1, 2, 3]

/-- The SHOWING slot, if any (R84). -/
def Fcu.showingSlot (f : Fcu) : Option (Fin 4) := allSlots.find? fun k => f.slots[k].state == .showing

/-- The lowest slot whose part half is due (R87). -/
def Fcu.dueSlot (f : Fcu) : Option (Fin 4) := allSlots.find? fun k => f.slots[k].headerDue

/-! ### Notices (R169) -/

/-- Posts a notice: it takes the next position and joins the write list, or is dropped and counted when the queue is full. Only the
counts bound the write list: the model's choice, log entry 49. -/
def Hku.post (h : Hku) (time : Time) (n : Notice) : Hku :=
  if (h.noticeProducer - h.noticeConsumer).toNat < Config.noticeLimit then
    { h with
      noticeProducer := h.noticeProducer + 1
      writeList := h.writeList ++ [⟨h.noticeProducer.toNat % 64, time, n⟩] }
  else { h with counters.noticesLost := h.counters.noticesLost + 1 }

/-- Posts a notice with the time of the step. -/
def State.post (s : State) (n : Notice) : State := { s with hku := s.hku.post s.now n }

/-- Posts a notice with a time of its own (section 10.2). -/
def State.postAt (s : State) (time : Time) (n : Notice) : State := { s with hku := s.hku.post time n }

/-! ### The power level (R131, R166) -/

/-- Sets the power level in force; the copy engine's paused flag follows it at once. -/
def State.setLevel (s : State) (level : Fin 8) : State :=
  { s with pu.level := level, ce.paused := decide (level.val < 2) }

/-- The caps of the level in force (R166). -/
def State.caps (s : State) : LevelCaps := s.hku.settings.caps s.pu.level

/-! ### The upstream side of the tether (R12 to R16) -/

/-- Generates a flow message (section 1.4). -/
def Tiu.sendFlow (u : Tiu) (m : FlowMessage) (f : FlowState) : Tiu :=
  { u with flow := f, flowOut := u.flowOut ++ [m] }

def Upstream.isRefusal : Upstream → Bool
  | .readData _ .ok _ => false
  | .readData _ _ _ => true
  | .attention _ _ => false

def Upstream.isAttention : Upstream → Bool
  | .readData _ _ _ => false
  | .attention _ _ => true

/-- Answers a READ with a refusal; it is discarded when 32 are waiting (R16). -/
def Tiu.refuse (u : Tiu) (tag : Fin 32) (o : ReadOutcome) : Tiu :=
  if u.order.countP Upstream.isRefusal < Config.refusalLimit then { u with order := u.order ++ [.readData tag o []] }
  else u

/-- Asks for an ATTENTION; it is placed when the link is UP and the attention list has room (R16, R173). -/
def Tiu.attend (u : Tiu) (position kind : Nat) : Tiu :=
  if u.link = .up ∧ u.order.countP Upstream.isAttention < Config.attentionLimit then
    { u with order := u.order ++ [.attention position kind] }
  else u

/-- Sets a tag's entry. -/
def Tiu.setTag (u : Tiu) (tag : Fin 32) (x : TagState) : Tiu := { u with tags := u.tags.set tag x }

/-- While the link is UP and nothing is being transmitted, the next message begins: flow messages first (R15). -/
def Tiu.startSending (u : Tiu) : Tiu :=
  if u.link = .up ∧ u.sending = none then
    if u.flowOut ≠ [] then { u with sending := some .flow }
    else if u.order ≠ [] then { u with sending := some .order }
    else u
  else u

/-! ### The DRAM Port (R18, R19) -/

def AccessKind.client : AccessKind → Client
  | .consoleHalf _ | .pixels _ => .scanOut
  | .audio _ => .audio
  | .inboundWrite _ | .inboundRead _ => .inbound
  | .exchangeReset | .ringRestart | .indicator | .exchangeRecord _ _ | .ringRecord | .ringControl _ => .motion
  | .bootIdentity | .bootFields | .bootSettings | .bootZero _ | .restart | .noticeEntry | .noticeProducer _
  | .partHalf _ | .statusFirst | .statusSecond | .commandConsumer | .layoutTable => .housekeeping
  | .copyRead | .copyWrite => .copy

def Transfer.length : Transfer → Nat
  | .read len => len
  | .write bytes => bytes.length

/-- The first address past an access. -/
def Access.stop (a : Access) : Nat := a.addr + a.transfer.length

/-- What memory is when an access has completed (R18). -/
def Access.apply (a : Access) (m : Memory) : Memory :=
  match a.transfer with
  | .read _ => m
  | .write bytes => m.writeBytes a.addr bytes

/-- The bytes an access's span holds. -/
def Access.fetch (a : Access) (m : Memory) : List Byte := m.readBytes a.addr a.transfer.length

/-- The bytes of one window row (R117). -/
def Settings.rowBytes (c : Settings) : Nat := c.panelWidth * 4

/-- The next pixel read of a scan-out (R116, R117). -/
def Scan.access (n : Scan) (c : Settings) : Access :=
  let row := n.base + 64 + (n.originRow + n.row) * (8 * c.sourceWidth)
  let start := match n.eye with
    | .left => row + 4 * n.columnLeft
    | .right => row + 4 * c.sourceWidth + 4 * n.columnRight
  ⟨.pixels n.eye, start + n.done, .read (min Config.accessLimit (c.rowBytes - n.done)), true⟩

/-- The access the scan-out client has waiting: the console half of a chosen slot (R85), or the next read of a row whose read
time has come (R117). -/
def State.scanWaiting (s : State) : Option Access :=
  match s.ssu.chosen, s.hku.layout with
  | some k, some l => some ⟨.consoleHalf k, l.slotBase k, .read 32, true⟩
  | some _, none => none
  | none, _ =>
    match s.ssu.scan with
    | some n => if n.row < s.ssu.rowsDue then some (n.access s.hku.settings) else none
    | none => none

/-- The grants that are part of the step before them (R19, log entry 8): when the port is free, a waiting scan-out access; else, with
no audio access waiting, the inbound access presented. -/
def State.arbitrate (s : State) : State :=
  match s.port with
  | some _ => s
  | none =>
    match s.scanWaiting with
    | some a => { s with port := some a }
    | none =>
      match s.au.waiting, s.tiu.service with
      | [], .presented a => { s with port := some a, tiu.service := .atPort }
      | _, _ => s

/-- What follows every step at once: the port is granted where no choice is needed, and the link begins to transmit. -/
def State.settle (s : State) : State := { s.arbitrate with tiu := s.arbitrate.tiu.startSending }

/-- A step that happens at headset time `t` when its condition holds, and does not take place otherwise (log entry 2). -/
def State.fire (s : State) (t : Time) (condition : Bool) (f : State → State) : Res :=
  .next (if condition then (f { s with now := t }).settle else s)

/-- The state in which a completed access leaves the port: the port is free, and memory holds the access's effect (R18). -/
def State.served (s : State) (t : Time) (a : Access) : State :=
  { s with now := t, port := none, mem := a.apply s.mem }

/-- Clears the live mark of the access at the port when it is of the kinds given (log entry 16). -/
def State.dropAccess (s : State) (p : AccessKind → Bool) : State :=
  match s.port with
  | some a => if p a.kind then { s with port := some { a with live := false } } else s
  | none => s

/-! ### What the motion and housekeeping clients have due (R67, R172) -/

/-- The first item of motion work due, in the order of R67. -/
inductive MotionWork where
  | exchangeReset
  | ringRestart
  | indicator
  | exchangeRecord (r : PoseRecord)
  | ringRecord (r : PoseRecord)
  | ringControl (r : PoseRecord)
  deriving DecidableEq, Repr

def Publication.due (p : Publication) : Option MotionWork :=
  if p.exchange.resetDue && !p.exchange.hold then some .exchangeReset
  else if p.ringRestartDue then some .ringRestart
  else if p.exchange.indicatorDue then some .indicator
  else
    match p.pending, p.exchange.resetDue with
    | some r, false => some (.exchangeRecord r)
    | _, _ =>
      match p.list with
      | [] => none
      | r :: _ => if p.headWritten then some (.ringControl r) else some (.ringRecord r)

/-- The first item of housekeeping work due, in the order of R172. -/
inductive HousekeepingWork where
  | restart (step : RestartStep)
  | noticeEntry (p : Posted)
  | noticeProducer
  | partHalf (slot : Fin 4)
  | statusSecond (bytes : List Byte)
  | statusFirst
  | commandConsumer
  | commandRecord
  | layoutTable (r : Record)
  deriving DecidableEq, Repr

/-- Command work, the last item of R172: the consumer word, the region table of an APPLY_LAYOUT, the next record (R37). -/
def Hku.commandDue (h : Hku) : Option HousekeepingWork :=
  if h.consumerDue then some .commandConsumer
  else
    match h.work with
    | .tableDue r => some (.layoutTable r)
    | .idle => if h.consumer ≠ h.latest then some .commandRecord else none
    | .taking _ | .tableReading _ | .halves _ | .restarting _ => none

/-- The items of R172 from the notice entry write on. -/
def State.reportDue (s : State) : Option HousekeepingWork :=
  match s.hku.writeList with
  | p :: _ => some (.noticeEntry p)
  | [] =>
    if s.hku.noticeWritten ≠ s.hku.noticeShown then some .noticeProducer
    else
      match s.fcu.dueSlot with
      | some k => some (.partHalf k)
      | none =>
        match s.hku.statusRest with
        | some bytes => some (.statusSecond bytes)
        | none => if s.hku.statusDue then some .statusFirst else s.hku.commandDue

/-- What the housekeeping client has due (R172). -/
def State.housekeepingDue (s : State) : Option HousekeepingWork :=
  match s.hku.work with
  | .restarting (step :: _) => some (.restart step)
  | _ => s.reportDue

/-- The inbound client has its access presented (R8). -/
def State.inboundWaiting (s : State) : Bool :=
  match s.tiu.service with
  | .presented _ => true
  | .idle | .atPort | .raising _ => false

/-- The audio client may be granted: the port is free and no scan-out access waits (R19). -/
def State.audioMayGo (s : State) : Bool := s.port.isNone && s.scanWaiting.isNone

/-- The motion client may be granted: nor does an audio or an inbound access wait (R19). -/
def State.motionMayGo (s : State) : Bool := s.audioMayGo && s.au.waiting.isEmpty && !s.inboundWaiting

/-- The housekeeping client may be granted: nor is motion work due (R19, R67). -/
def State.housekeepingMayGo (s : State) : Bool := s.motionMayGo && s.mu.pub.due.isNone

/-- The copy client may be granted: nor is housekeeping work due (R19, R172). -/
def State.copyMayGo (s : State) : Bool := s.housekeepingMayGo && s.housekeepingDue.isNone

/-! ### The sensor port (R48, R49) -/

/-- When the port is free, the next exchange begins: a waiting stop, then a configuration, then a rate, then the read of a pending
data-ready. -/
def Mu.nextExchange (m : Mu) : Mu :=
  match m.sensor.busy with
  | some _ => m
  | none =>
    if m.sensor.stopWaiting then { m with sensor.busy := some .stop, sensor.stopWaiting := false }
    else if m.sensor.configWaiting then
      { m with sensor.busy := some (.config m.inUse), sensor.configWaiting := false }
    else
      match m.sensor.rateWaiting, m.sensor.ready with
      | some r, _ => { m with sensor.busy := some (.rate r), sensor.rateWaiting := none }
      | none, some at_ => { m with sensor.busy := some (.read at_ true), sensor.ready := none }
      | none, none => m

/-- A stop exchange is begun: a waiting rate exchange and a pending read are dropped, and the sample of a read in progress is no
longer wanted (R47, R48, R60). -/
def Mu.beginStop (m : Mu) : Mu :=
  let busy := m.sensor.busy.map fun e => match e with
    | .read at_ _ => .read at_ false
    | .config r => .config r
    | .rate r => .rate r
    | .stop => .stop
  { m with
    sensor.busy := busy
    sensor.stopWaiting := true
    sensor.rateWaiting := none
    sensor.ready := none }.nextExchange

/-- A configuration exchange is begun (R48). -/
def Mu.beginConfig (m : Mu) : Mu := { m with sensor.configWaiting := true }.nextExchange

/-- A rate exchange is begun; it replaces one that waits (R48). -/
def Mu.beginRate (m : Mu) (r : Rate) : Mu := { m with sensor.rateWaiting := some r }.nextExchange

/-- Data-ready becomes pending, replacing one that waits, and is read at once on an idle port (R49). -/
def Mu.pendReady (m : Mu) (t : Time) : Mu := { m with sensor.ready := some t }.nextExchange

end Sys2Proof.Machine
end

