-- ==== Sys2Proof/Machine/Operands.lean ====
section
/-! DEFINITION. What the part reads: boot settings blocks, command records, region tables, cue entries, console halves, and the
classification of console bytes. -/

namespace Sys2Proof.Machine

/-- A signed field of a record: `n` bytes, two's complement (chapter 11). -/
def signedAt (bytes : List Byte) (off n : Nat) : Int := (BitVec.ofNat (8 * n) (fieldAt bytes off n)).toInt

/-- A 32-bit field of a record. -/
def wordAt (bytes : List Byte) (off : Nat) : Word := BitVec.ofNat 32 (fieldAt bytes off 4)

/-- A 16-bit field of a record. -/
def halfAt (bytes : List Byte) (off : Nat) : Half := BitVec.ofNat 16 (fieldAt bytes off 2)

/-! ### Boot settings (R28 to R30) -/

/-- A sensor rate of so many hertz (R30). -/
def rateOf (hz : Nat) : Option Rate :=
  if hz = 500 then some .hz500 else if hz = 1000 then some .hz1000 else if hz = 2000 then some .hz2000 else none

/-- A setting within its range is taken as written; otherwise its default (R29). The flag says it was replaced. -/
def checked {α : Type} (ok : Bool) (written dflt : α) : α × Bool := if ok then (written, false) else (dflt, true)

/-- A source axis code (section 11.4). -/
def sourceOf (code : Nat) : Option Source :=
  if code % 4 = 0 then some .x else if code % 4 = 1 then some .y else if code % 4 = 2 then some .z else none

/-- The axis map of a settings block, when its three sources are X, Y and Z in some order (R30). -/
def axisMapOf (b : List Byte) : Option (Axes AxisSource) :=
  match sourceOf (fieldAt b 20 1), sourceOf (fieldAt b 21 1), sourceOf (fieldAt b 22 1) with
  | some yaw, some pitch, some roll =>
    if yaw ≠ pitch ∧ yaw ≠ roll ∧ pitch ≠ roll then
      some ⟨⟨yaw, 128 ≤ fieldAt b 20 1⟩, ⟨pitch, 128 ≤ fieldAt b 21 1⟩, ⟨roll, 128 ≤ fieldAt b 22 1⟩⟩
    else none
  | _, _, _ => none

/-- One entry of the power level table, field by field (R30). -/
def levelOf (b : List Byte) (n : Fin 8) : LevelCaps × Bool :=
  let off := 40 + 8 * n.val
  let d := defaultLevels[n]
  let lit := checked (100 ≤ fieldAt b off 2 && fieldAt b off 2 ≤ 20000) (fieldAt b off 2) d.lit
  let gain := checked (fieldAt b (off + 2) 2 ≤ 32768) (fieldAt b (off + 2) 2) d.gain
  let rate := match rateOf (fieldAt b (off + 4) 2) with
    | some r => (r, false)
    | none => (d.rate, true)
  (⟨lit.1, gain.1, rate.1⟩, lit.2 || gain.2 || rate.2)

/-- A panel width or height: 256 to 4096, a multiple of 8 (R29). -/
def panelSizeOk (v : Nat) : Bool := 256 ≤ v && v ≤ 4096 && v % 8 == 0

/-- An eye trim: -64 to +63 pixels (R29, R114). -/
def trimOk (v : Int) : Bool := -64 ≤ v && v ≤ 63

/-- The settings in force from an accepted settings block, and whether any was replaced (R29, R30). The frame period is checked
before lit_offset. -/
def settingsOf (b : List Byte) : Settings × Bool :=
  let d := defaultSettings
  let width := checked (panelSizeOk (fieldAt b 0 2)) (fieldAt b 0 2) d.panelWidth
  let height := checked (panelSizeOk (fieldAt b 2 2)) (fieldAt b 2 2) d.panelHeight
  let period := checked (6944 ≤ fieldAt b 4 4 && fieldAt b 4 4 ≤ 20000) (fieldAt b 4 4) d.framePeriod
  let lit := checked (fieldAt b 8 4 + 500 ≤ period.1) (fieldAt b 8 4) d.litOffset
  let kx := checked (0x0100 ≤ fieldAt b 14 2) (fieldAt b 14 2) d.kx
  let ky := checked (0x0100 ≤ fieldAt b 16 2) (fieldAt b 16 2) d.ky
  let left := checked (trimOk (signedAt b 18 1)) (signedAt b 18 1) d.trims.left
  let right := checked (trimOk (signedAt b 19 1)) (signedAt b 19 1) d.trims.right
  let axes := match axisMapOf b with
    | some m => (m, false)
    | none => (defaultAxisMap, true)
  let grant := checked (500 ≤ fieldAt b 32 4 && fieldAt b 32 4 ≤ 20000) (fieldAt b 32 4) d.defaultGrant
  let volts := checked (3000 ≤ fieldAt b 36 4 && fieldAt b 36 4 ≤ 12000) (fieldAt b 36 4) d.undervoltage
  let levels := Vector.ofFn fun n => (levelOf b n).1
  let replaced := width.2 || height.2 || period.2 || lit.2 || kx.2 || ky.2 || left.2 || right.2 || axes.2 || grant.2
    || volts.2 || [0, 1, 2, 3, 4, 5, 6, 7].any fun n => (levelOf b n).2
  ({ panelWidth := width.1
     panelHeight := height.1
     framePeriod := period.1
     litOffset := lit.1
     guardX := fieldAt b 12 1
     guardY := fieldAt b 13 1
     kx := kx.1
     ky := ky.1
     trims := ⟨left.1, right.1⟩
     axisMap := axes.1
     bias := ⟨halfAt b 24, halfAt b 26, halfAt b 28⟩
     defaultGrant := grant.1
     undervoltage := volts.1
     levels := levels }, replaced)

/-- The marker word of an accepted boot record (section 11.4). -/
def bootMarker : Word := 0x5A170720

/-- The boot settings in force, their source and the settings-adjusted flag (R27, R28). -/
def bootFrom : Option FlashRecord → Settings × BootSource × Bool
  | none => (defaultSettings, .defaults, false)
  | some r =>
    if r.marker = bootMarker ∧ r.length = 192 then ((settingsOf r.block).1, .flash, (settingsOf r.block).2)
    else (defaultSettings, .defaults, false)

/-! ### Command records (section 11.5) -/

def recordOf (bytes : List Byte) : Record := ⟨halfAt bytes 0, halfAt bytes 2, bytes⟩

/-- An unsigned 4-byte parameter. -/
def Record.param (r : Record) (off : Nat) : Nat := fieldAt r.bytes off 4

/-- A signed 4-byte parameter. -/
def Record.signed (r : Record) (off : Nat) : Int := signedAt r.bytes off 4

/-- The codes of the command table (section 11.5). -/
def commandCodes : List Half :=
  [0x0010, 0x0011, 0x0020, 0x0021, 0x0028, 0x0030, 0x0031, 0x0032, 0x0040, 0x0041, 0x0042, 0x0043, 0x0044, 0x0050, 0x0051,
    0x0052, 0x0060, 0x0061, 0x0070]

/-- The address of a command record by its count (section 2.3). -/
def recordAddr (count : Word) : Nat := 0x400 + 32 * (count.toNat % Config.ringRecords)

/-! ### The region table (R32 to R34) -/

/-- The four entries of a region table as read. -/
def layoutOf (b : List Byte) : Layout :=
  ⟨⟨fieldAt b 0 4, fieldAt b 4 4⟩, ⟨fieldAt b 16 4, fieldAt b 20 4⟩, ⟨fieldAt b 32 4, fieldAt b 36 4⟩,
    ⟨fieldAt b 48 4, fieldAt b 52 4⟩⟩

/-- The entries in order, each with the number of bytes a unit of its size word stands for (R32). -/
def Layout.entries (l : Layout) : List (Nat × Region × Nat) :=
  [(0, l.frameArea, 4), (1, l.poseRing, 32), (2, l.playback, 4), (3, l.capture, 208)]

/-- The allowed sizes of R32. -/
def sizeOk (slotSize entry size : Nat) : Bool :=
  if entry = 0 then slotSize ≤ size && size ≤ Config.dramSize && size % 256 == 0
  else if entry = 1 then 16 ≤ size && size ≤ 4096
  else if entry = 2 then 1024 ≤ size && size ≤ 262144 && size % 48 == 0
  else 16 ≤ size && size ≤ 1024

/-- The first fault of one entry, in the order of R34. -/
def entryFault (slotSize : Nat) (l : Layout) (e : Nat × Region × Nat) : Option LayoutFault :=
  let extent := e.2.1.size * e.2.2
  if !sizeOk slotSize e.1 e.2.1.size then some .size
  else if e.2.1.base % 256 ≠ 0 then some .align
  else if e.2.1.base + extent > Config.dramSize then some .outside
  else if e.2.1.base < 0x1000 then some .anchor
  else if l.entries.any fun o => o.1 ≠ e.1 && sharesByte e.2.1.base extent o.2.1.base (o.2.1.size * o.2.2) then
    some .overlap
  else none

/-- The first fault of a region table, with its entry number (R34). -/
def Layout.fault (slotSize : Nat) (l : Layout) : Option (Nat × LayoutFault) :=
  l.entries.findSome? fun e => (entryFault slotSize l e).map fun f => (e.1, f)

/-! ### Cue entries and console halves -/

/-- The console half of a slot header (section 11.7). -/
def consoleHalfOf (b : List Byte) : ConsoleHalf := ⟨wordAt b 0, wordAt b 4, fieldAt b 8 1 % 2 == 1⟩

/-- The bytes of one cue frame (R148). -/
def cueFrameBytes (mono : Bool) : Nat := if mono then 2 else 4

/-- The cue table entry of a cue that starts, or its fault in the order of R148. -/
def cueOf (index : Fin 4) (mode : CueMode) (b : List Byte) : CueFault ⊕ Cue :=
  let addr := fieldAt b 0 4
  let len := fieldAt b 4 4
  let mono := fieldAt b 8 1 % 2 == 1
  if len = 0 ∨ len > 480000 then .inl .length
  else if addr % 4 ≠ 0 then .inl .align
  else if addr + len * cueFrameBytes mono > Config.dramSize then .inl .range
  else .inr ⟨index, mode, addr, len, mono, 0⟩

/-- A stereo frame in memory: left then right. -/
def framesOf : Nat → List Byte → List Frame
  | 0, _ => []
  | n + 1, b => ⟨halfAt b 0, halfAt b 2⟩ :: framesOf n (b.drop 4)

/-- MONO frames in memory: one sample for both channels (R149). -/
def monoFramesOf : Nat → List Byte → List Frame
  | 0, _ => []
  | n + 1, b => ⟨halfAt b 0, halfAt b 0⟩ :: monoFramesOf n (b.drop 2)

/-- Source pixels in memory: red, green, blue, and an ignored byte (section 11.7). -/
def pixelsOf : List Byte → List Rgb
  | r :: g :: b :: _ :: rest => ⟨r, g, b⟩ :: pixelsOf rest
  | _ => []

/-! ### Classification of console bytes (R20 to R24, R81) -/

/-- The pieces of the Anchor Block where console bytes are refused, as offset and size (R21). -/
def anchorRefused : List (Nat × Nat) :=
  [(0x000, 64), (0x040, 192), (0x144, 4), (0x148, 4), (0x154, 4), (0x15C, 4), (0x160, 4), (0x16C, 4), (0x170, 4), (0x1C0, 64),
    (0x200, 512), (0x800, 1024)]

/-- Whether a byte of a frame slot is refused: the part half in every state, everything unless the slot is FREE (R81). -/
def slotRefuses (slotSize base : Nat) (state : SlotState) (a : Nat) : Bool :=
  inRange (base + 32) 32 a || (state != .free && inRange base slotSize a)

/-- Whether a byte is part-owned at this moment (R20). -/
def State.partOwned (s : State) (a : Nat) : Bool :=
  anchorRefused.any (fun p => inRange p.1 p.2 a) ||
  match s.hku.layout with
  | none => false
  | some l =>
    inRange l.poseRing.base (l.poseRing.size * 32) a || inRange l.capture.base (l.capture.size * 208) a ||
    allSlots.any fun k => slotRefuses s.hku.settings.slotSize (l.slotBase k) s.fcu.slots[k].state a

/-- The landing bytes of a WRITE: a refused byte is absent (R20). -/
def State.landing (s : State) : Nat → List Byte → List (Option Byte)
  | _, [] => []
  | a, b :: rest => (if s.partOwned a then none else some b) :: s.landing (a + 1) rest

/-- The watched words with their addresses, ascending; the submit words only with a layout (R24). -/
def State.watchedWords (s : State) : List (Watched × Nat) :=
  [(.commandProducer, 0x140), (.noticeConsumer, 0x14C), (.poseHold, 0x150), (.playbackProducer, 0x158),
    (.captureConsumer, 0x164), (.cueRequest, 0x168)] ++
  match s.hku.layout with
  | none => []
  | some l => allSlots.map fun k => (.submit k, l.slotBase k + 28)

/-- The watched words a WRITE covers and that land (R24). -/
def State.covered (s : State) (addr len : Nat) : List (Watched × Nat) :=
  s.watchedWords.filter fun w => addr ≤ w.2 && w.2 + 4 ≤ addr + len && !s.partOwned w.2

/-! ### Copy jobs (R125 to R128) -/

/-- The bytes a job's rows span, those between rows included (R125). -/
def extentOf (rows stride rowBytes : Nat) : Nat := (rows - 1) * stride + rowBytes

/-- The job a COPY record describes. -/
def copyJob (r : Record) : Job where
  tag := r.tag
  kind := .copy
  source := r.param 4
  dest := r.param 8
  rowBytes := r.param 12
  rows := r.param 16
  sourceStride := r.param 20
  destStride := r.param 24
  pattern := 0
  descending := r.param 4 < r.param 8 &&
    r.param 8 < r.param 4 + extentOf (r.param 16) (r.param 20) (r.param 12)
  marks := []
  aborting := false

/-- The job a FILL record describes; it always runs ascending (R128). -/
def fillJob (r : Record) : Job where
  tag := r.tag
  kind := .fill
  source := 0
  dest := r.param 4
  rowBytes := r.param 8
  rows := r.param 12
  sourceStride := 0
  destStride := r.param 16
  pattern := wordAt r.bytes 20
  descending := false
  marks := []
  aborting := false

def Job.destExtent (j : Job) : Nat := extentOf j.rows j.destStride j.rowBytes

/-- The parameters of a job are in range (R125). -/
def Job.paramsOk (j : Job) : Bool :=
  let common := j.dest % 4 == 0 && j.rowBytes % 4 == 0 && j.destStride % 4 == 0 && 4 ≤ j.rowBytes &&
    j.rowBytes ≤ 65536 && 1 ≤ j.rows && j.rows ≤ 4096 && j.rowBytes ≤ j.destStride &&
    j.dest + j.destExtent ≤ Config.dramSize
  match j.kind with
  | .fill => common
  | .copy => common && j.source % 4 == 0 && j.sourceStride % 4 == 0 && j.rowBytes ≤ j.sourceStride &&
      j.source + extentOf j.rows j.sourceStride j.rowBytes ≤ Config.dramSize

/-- The destination touches a range the part owns for itself (R126). -/
def State.destProtected (s : State) (j : Job) : Bool :=
  anchorRefused.any (fun p => sharesByte j.dest j.destExtent p.1 p.2) ||
  match s.hku.layout with
  | none => false
  | some l =>
    sharesByte j.dest j.destExtent l.poseRing.base (l.poseRing.size * 32) ||
    sharesByte j.dest j.destExtent l.capture.base (l.capture.size * 208) ||
    allSlots.any fun k => sharesByte j.dest j.destExtent (l.slotBase k + 32) 32

/-- The frame slots the destination overlaps (R127). -/
def State.destSlots (s : State) (j : Job) : List (Fin 4) :=
  match s.hku.layout with
  | none => []
  | some l => allSlots.filter fun k =>
      sharesByte j.dest j.destExtent (l.slotBase k) s.hku.settings.slotSize

end Sys2Proof.Machine
end

