-- ==== Sys2Proof/Machine/Flags.lean ====
section
/-! DEFINITION. The arithmetic of motion, shift, audio and power, and the byte layouts of everything the part writes
(chapter 11). -/

namespace Sys2Proof.Machine

/-! ### Motion (R50 to R54, R62) -/

def Rate.hz : Rate → Nat
  | .hz500 => 500
  | .hz1000 => 1000
  | .hz2000 => 2000

/-- The nominal period in microseconds (section 3.2). -/
def Rate.period : Rate → Nat
  | .hz500 => 2000
  | .hz1000 => 1000
  | .hz2000 => 500

/-- The lower of two rates (R50). -/
def Rate.lower (a b : Rate) : Rate := if a.hz ≤ b.hz then a else b

def Source.of {α : Type} (v : Xyz α) : Source → α
  | .x => v.x
  | .y => v.y
  | .z => v.z

/-- The mapped rate of an axis, computed beyond 16 bits (R51). -/
def AxisSource.mapped (m : AxisSource) (gyro : Xyz Half) : Int :=
  if m.negative then -(m.source.of gyro).toInt else (m.source.of gyro).toInt

/-- The bias-corrected rate before it is clamped (R52). -/
def AxisSource.unclamped (m : AxisSource) (gyro : Xyz Half) (bias : Half) : Int := m.mapped gyro - bias.toInt

/-- The bias-corrected rate r (R52). -/
def AxisSource.corrected (m : AxisSource) (gyro : Xyz Half) (bias : Half) : Int :=
  clamp (-32768) 32767 (m.unclamped gyro bias)

/-- Whether an axis makes the sample SATURATED: r was clamped, or the value read lies at the limit of its range (R52). -/
def AxisSource.saturates (m : AxisSource) (gyro : Xyz Half) (bias : Half) : Bool :=
  m.corrected gyro bias != m.unclamped gyro bias || (m.source.of gyro).toInt == -32768 ||
    (m.source.of gyro).toInt == 32767

/-- The exact sum of one accumulation (R54). -/
def accumulation (r : Int) (dt remainder : Nat) : Int := r * 4096 * dt + remainder

/-- The increment of an accumulation: N divided by 1,000,000, rounded toward minus infinity (R54). -/
def increment (r : Int) (dt remainder : Nat) : Int := accumulation r dt remainder / 1000000

/-- The new remainder, 0 to 999,999 (R54). -/
def remainderAfter (r : Int) (dt remainder : Nat) : Nat := (accumulation r dt remainder % 1000000).toNat

/-- An angle moved by a number of counts, modulo 2^32. -/
def moveAngle (a : Word) (counts : Int) : Word := a + BitVec.ofInt 32 counts

/-- The predicted angle of one axis (R62). -/
def predictAxis (angle : Word) (rate : Int) (dt : Nat) : Word := moveAngle angle (rate * 4096 * dt / 1000000)

/-- The time a prediction extrapolates: 0 to 50,000 microseconds (R62). -/
def predictionTime (target last : Time) : Nat := (clamp 0 50000 (signedDiff target last)).toNat

/-- The prediction of the MU for a target time, with its motion state; no angles in OFF, a zero rate in STALLED (R62, R63). -/
def Mu.predict (m : Mu) (target : Time) : Prediction :=
  let dt := predictionTime target m.lastTime
  { motion := m.motion
    angles :=
      match m.motion with
      | .off => none
      | .stalled => some m.angles
      | .running => some
          ⟨predictAxis m.angles.yaw m.rates.yaw.toInt dt, predictAxis m.angles.pitch m.rates.pitch.toInt dt,
            predictAxis m.angles.roll m.rates.roll.toInt dt⟩ }

/-- The answer of the pose history to a lookup (R71). -/
def Publication.lookup (p : Publication) (sequence : Word) : Option PoseRecord :=
  p.history.find? fun r => r.sequence == sequence

/-- The accelerometer field of a record: bits 1 to 15 of the reading, and a flag in bit 0 (R179). -/
def withFlag (reading : Half) (flag : Bool) : Half :=
  BitVec.ofNat 16 (reading.toNat / 2 * 2 + (if flag then 1 else 0))

/-! ### The late shift (R103 to R112) -/

/-- The lit duration of a frame period (R103). -/
def litDuration (c : Settings) (request cap : Nat) : Nat :=
  if c.litOffset + min request cap > c.framePeriod then c.framePeriod - c.litOffset else min request cap

/-- The target time at the middle of the lit interval (R105). -/
def targetTime (boundary : Time) (c : Settings) (lit : Nat) : Time := boundary + BitVec.ofNat 32 (c.litOffset + lit / 2)

/-- Division rounded half away from zero (R111). -/
def roundDiv (n : Int) (d : Nat) : Int :=
  if 0 ≤ n then (2 * n + d) / (2 * d) else -((2 * (-n) + d) / (2 * d))

/-- The difference of two angles, clamped to 64 degrees either way (R110). -/
def angleDiff (predicted render : Word) : Int := clamp (-4194304) 4194304 (signedDiff predicted render)

/-- The rotation shift of one axis (R111). -/
def rotationShift (delta : Int) (k : Nat) : Int := -roundDiv (delta * k) 16777216

/-- The shift results of a showing from the rotation shifts, with the trims and the guard-band clamp (R112). -/
def shiftResults (c : Settings) (trims : Trims) (sx sy : Int) (stale noPose : Bool) : ShiftResults :=
  let left := clamp (-c.guardX) c.guardX (sx + trims.left)
  let right := clamp (-c.guardX) c.guardX (sx + trims.right)
  let vertical := clamp (-c.guardY) c.guardY sy
  { shift := ⟨left, right, vertical⟩
    clampedX := left != sx + trims.left || right != sx + trims.right
    clampedY := vertical != sy
    poseStale := stale
    noPose := noPose }

/-- The read time of a panel row (R117). -/
def rowTime (boundary : Time) (c : Settings) (row : Nat) : Time :=
  boundary + BitVec.ofNat 32 (row * c.framePeriod / c.panelHeight)

/-! ### Audio (R150, R154) -/

/-- One output sample (R150). -/
def mixSample (main cue : Int) (duck : Bool) (gain : Nat) : Half :=
  let m := if duck then main / 4 else main
  BitVec.ofInt 16 (clamp (-32768) 32767 (m + cue) * gain / 32768)

/-- The output frame of a block by its number; data not yet read counts 0 (R138, R150). -/
def Block.outputFrame (b : Block) (n : Nat) : Frame :=
  let m := b.main[n]?.getD ⟨0, 0⟩
  let c := b.cue[n]?.getD ⟨0, 0⟩
  ⟨mixSample m.left.toInt c.left.toInt b.duck b.gain, mixSample m.right.toInt c.right.toInt b.duck b.gain⟩

/-- The peak absolute level of a run of samples; -32768 counts as 32768 (R154). -/
def peakLevel (samples : List Half) : Nat := samples.foldl (fun p v => max p v.toInt.natAbs) 0

/-- A sample at the limit of its range (R154). -/
def atLimit (v : Half) : Bool := v.toInt == -32768 || v.toInt == 32767

/-! ### Power (R158, R161) -/

/-- The power of a sample in milliwatts (R158). -/
def samplePower (r : MonitorReading) : Nat := min r.milliVolts 24000 * min r.milliAmps 8000 / 1000

/-- The under limit of a grant (R161). -/
def underLimit (grant : Nat) : Nat := grant - grant / 8

/-! ### Value codes (section 11.8) -/

def Reason.code : Reason → Nat
  | .unknown => 1
  | .badParam => 2
  | .notIdle => 3
  | .badLayout => 4
  | .noLayout => 5
  | .busy => 6
  | .notRunning => 7
  | .queueFull => 8
  | .protectedRange => 9
  | .targetBusy => 10
  | .noSuchJob => 11

def LayoutFault.code : LayoutFault → Nat
  | .size => 1
  | .align => 2
  | .outside => 3
  | .anchor => 4
  | .overlap => 5

def BootSource.code : BootSource → Nat
  | .flash => 1
  | .defaults => 2

def CueMode.code : CueMode → Nat
  | .mix => 0
  | .duck => 1

def CueFault.code : CueFault → Nat
  | .length => 1
  | .align => 2
  | .range => 3

def StopWhere.code : StopWhere → Nat
  | .ramp => 0
  | .boundary => 1

def LevelCause.code : LevelCause → Nat
  | .over => 1
  | .under => 2
  | .ceiling => 3

def JobKind.code : JobKind → Nat
  | .copy => 0
  | .fill => 1

def JobOutcome.code : JobOutcome → Nat
  | .complete => 0
  | .aborted => 1

def SlotState.code : SlotState → Nat
  | .free => 0
  | .waiting => 1
  | .queued => 2
  | .showing => 3

def SlotOutcome.code : SlotOutcome → Nat
  | .none => 0
  | .shown => 1
  | .skipped => 2
  | .flushed => 3

def DisplayState.code : DisplayState → Nat
  | .off => 0
  | .powering => 1
  | .blank => 2
  | .showing => 3

def MotionState.code : MotionState → Nat
  | .off => 0
  | .running => 1
  | .stalled => 2

def PlaybackState.code : PlaybackState → Nat
  | .stopped => 0
  | .priming => 1
  | .playing => 2

def PartState.code : PartState → Nat
  | .booting => 0
  | .ready => 1

def LinkState.code : LinkState → Nat
  | .down => 0
  | .up => 1

def FlowState.code : FlowState → Nat
  | .running => 0
  | .held => 1

def ReadOutcome.code : ReadOutcome → Nat
  | .ok => 0
  | .refusedFull => 1
  | .tagInUse => 2
  | .outOfRange => 3

def flagCode (b : Bool) : Nat := if b then 1 else 0

/-! ### Notice entries (section 11.6) -/

/-- The kind code of a notice. -/
def Notice.code : Notice → Nat
  | .cmdRefused .. => 1
  | .commandsLost .. => 2
  | .restarted .. => 3
  | .refusedWrite .. => 4
  | .outOfRangeWrite .. => 5
  | .timeMark .. => 6
  | .frameSkipped .. => 7
  | .contentLost .. => 8
  | .contentResumed .. => 9
  | .poseStale .. => 10
  | .displayStopped .. => 11
  | .sensorStall .. => 12
  | .sensorResumed .. => 13
  | .poseRingHalf .. => 14
  | .poseRingWrap .. => 15
  | .playbackStarved .. => 16
  | .playbackOverrun .. => 17
  | .cueDone .. => 18
  | .cueReplaced .. => 19
  | .cueRefused .. => 20
  | .captureHalf .. => 21
  | .captureWrap .. => 22
  | .captureOverflow .. => 23
  | .powerLevelChanged .. => 24
  | .undervoltage .. => 25
  | .copyDone .. => 26

/-- The three detail bytes. -/
def Notice.detail : Notice → Nat × Nat × Nat
  | .cmdRefused r none .. => (r.code, 0, 0)
  | .cmdRefused r (some (entry, f)) .. => (r.code, entry, f.code)
  | .refusedWrite n _ | .outOfRangeWrite n _ => (n % 256, n / 256 % 256, n / 65536)
  | .timeMark id _ => (id.toNat, 0, 0)
  | .frameSkipped k _ | .contentResumed k _ | .poseStale k .. => (k.val, 0, 0)
  | .contentLost k n => (k.val, n, 0)
  | .displayStopped w n => (w.code, n, 0)
  | .poseRingHalf p _ | .poseRingWrap p _ | .captureHalf p _ | .captureWrap p _ => (p % 256, p / 256 % 256, p / 65536)
  | .cueDone i m _ | .cueReplaced i m => (i.val, m.code, 0)
  | .cueRefused i m f => (i.val, m.code, f.code)
  | .powerLevelChanged b a c _ => (b.val, a.val, c.code)
  | .undervoltage b .. => (b.val, 0, 0)
  | .copyDone k o .. => (k.code, o.code, 0)
  | .commandsLost .. | .restarted .. | .sensorStall _ | .sensorResumed _ | .playbackStarved .. | .playbackOverrun ..
  | .captureOverflow _ => (0, 0, 0)

/-- The data: low and high half. -/
def Notice.data : Notice → Nat × Nat
  | .cmdRefused _ _ i code tag => (i.toNat, code.toNat + 65536 * tag.toNat)
  | .restarted i tag => (i.toNat, tag.toNat)
  | .commandsLost a b | .playbackStarved a b | .playbackOverrun a b => (a.toNat, b.toNat)
  | .refusedWrite _ a | .outOfRangeWrite _ a => (a.toNat, 0)
  | .timeMark _ c => (c.toNat % 4294967296, c.toNat / 4294967296)
  | .frameSkipped _ v | .contentResumed _ v => (v.toNat, 0)
  | .poseStale _ v q => (v.toNat, q.toNat)
  | .sensorStall t | .sensorResumed t => (t.toNat, 0)
  | .poseRingHalf _ q | .poseRingWrap _ q | .captureHalf _ q | .captureWrap _ q | .captureOverflow q => (q.toNat, 0)
  | .cueDone _ _ n => (n, 0)
  | .powerLevelChanged _ _ _ avg => (avg, 0)
  | .undervoltage _ v i => (v, i)
  | .copyDone _ _ tag n => (tag.toNat, n)
  | .contentLost .. | .displayStopped .. | .cueReplaced .. | .cueRefused .. => (0, 0)

/-- The 16 bytes of a notice entry. -/
def Posted.bytes (p : Posted) : List Byte :=
  leBytes 1 p.notice.code ++ leBytes 1 p.notice.detail.1 ++ leBytes 1 p.notice.detail.2.1 ++
    leBytes 1 p.notice.detail.2.2 ++ leBytes 4 p.time.toNat ++ leBytes 4 p.notice.data.1 ++ leBytes 4 p.notice.data.2

/-! ### Records (section 11.7) -/

/-- A signed 16-bit field. -/
def signedBytes (v : Int) : List Byte := leBytes 2 (BitVec.ofInt 16 v).toNat

/-- The 32 bytes of a pose record. -/
def PoseRecord.bytes (r : PoseRecord) : List Byte :=
  leBytes 4 r.sequence.toNat ++ leBytes 4 r.time.toNat ++ leBytes 4 r.angles.yaw.toNat ++ leBytes 4 r.angles.pitch.toNat ++
    leBytes 4 r.angles.roll.toNat ++ leBytes 2 r.rates.yaw.toNat ++ leBytes 2 r.rates.pitch.toNat ++
    leBytes 2 r.rates.roll.toNat ++ leBytes 2 r.accel.x.toNat ++ leBytes 2 r.accel.y.toNat ++ leBytes 2 r.accel.z.toNat

/-- The outcome flags byte of a part half. -/
def OutcomeFlags.code (f : OutcomeFlags) : Nat :=
  flagCode f.clampedX + 2 * flagCode f.clampedY + 4 * flagCode f.poseStale + 8 * flagCode f.repeated + 16 * flagCode f.noPose

/-- The 32 bytes of a part half (R86). -/
def Slot.partHalf (x : Slot) : List Byte :=
  leBytes 1 x.state.code ++ leBytes 1 x.outcome.code ++ leBytes 1 x.flags.code ++ leBytes 1 x.shown ++
    leBytes 4 x.firstShown.toNat ++ signedBytes x.shift.left ++ signedBytes x.shift.right ++ signedBytes x.shift.vertical ++
    List.replicate 18 0

/-- The bytes of a stereo frame. -/
def Frame.bytes (f : Frame) : List Byte := leBytes 2 f.left.toNat ++ leBytes 2 f.right.toNat

/-- The 208 bytes of a capture block record (R154). -/
def captureBytes (sequence : Word) (g : Gathering) : List Byte :=
  let clipped := g.frames.any fun f => atLimit f.left || atLimit f.right
  leBytes 4 sequence.toNat ++ leBytes 4 g.time.toNat ++ leBytes 2 (peakLevel (g.frames.map Frame.left)) ++
    leBytes 2 (peakLevel (g.frames.map Frame.right)) ++ leBytes 4 (flagCode clipped) ++ (g.frames.map Frame.bytes).flatten

/-- The pose exchange indicator (section 11.3). -/
def PoseExchange.indicator (x : PoseExchange) : Nat :=
  (match x.front with
    | .ex0 => 0
    | .ex1 => 1) + 2 * flagCode x.missed + 4 * (x.frontSeq.toNat % 1073741824)

/-- The byte of an axis map entry (section 11.4). -/
def AxisSource.code (m : AxisSource) : Nat :=
  (match m.source with
    | .x => 0
    | .y => 1
    | .z => 2) + 128 * flagCode m.negative

/-- The 8 bytes of a power level table entry. -/
def LevelCaps.bytes (c : LevelCaps) : List Byte := leBytes 2 c.lit ++ leBytes 2 c.gain ++ leBytes 4 c.rate.hz

/-- The 192 bytes of the boot settings piece (R31, section 11.4). -/
def Settings.bytes (c : Settings) : List Byte :=
  leBytes 2 c.panelWidth ++ leBytes 2 c.panelHeight ++ leBytes 4 c.framePeriod ++ leBytes 4 c.litOffset ++
    leBytes 1 c.guardX ++ leBytes 1 c.guardY ++ leBytes 2 c.kx ++ leBytes 2 c.ky ++
    leBytes 1 (BitVec.ofInt 8 c.trims.left).toNat ++ leBytes 1 (BitVec.ofInt 8 c.trims.right).toNat ++
    leBytes 1 c.axisMap.yaw.code ++ leBytes 1 c.axisMap.pitch.code ++ leBytes 2 c.axisMap.roll.code ++
    leBytes 2 c.bias.yaw.toNat ++ leBytes 2 c.bias.pitch.toNat ++ leBytes 4 c.bias.roll.toNat ++ leBytes 4 c.defaultGrant ++
    leBytes 4 c.undervoltage ++ (c.levels.toList.map LevelCaps.bytes).flatten ++ List.replicate 88 0

/-- The bytes of an upstream message before its CRC (section 11.2). -/
def Upstream.bytes : Upstream → List Byte
  | .readData tag o data =>
    leBytes 1 0x81 ++ leBytes 1 tag.val ++ leBytes 2 o.code ++ leBytes 2 data.length ++ data
  | .attention position kind => leBytes 1 0x84 ++ leBytes 1 position ++ leBytes 1 kind

/-- The bytes of a flow message before its CRC (section 11.2). -/
def FlowMessage.bytes : FlowMessage → List Byte
  | .hold => leBytes 1 0x82
  | .resume => leBytes 1 0x83

/-! ### The status block (R176, section 11.7) -/

/-- The counters in the order of the block. -/
def Counters.words (c : Counters) : List Word :=
  [c.framesShown, c.repeated, c.skipped, c.contentLost, c.refusedWrites, c.overrunWrites, c.outOfRangeWrites, c.linkErrors,
    c.underruns, c.droppedBlocks, c.noticesLost]

/-- A job's bytes remaining (R135). -/
def Job.remaining (j : Job) (p : Progress) : Nat := j.rowBytes * j.rows - p.written

/-- The first half of the status block, 256 bytes, with every item as it stands (log entry 41: the status write count too). -/
def State.statusFirst (s : State) : List Byte :=
  let showing := s.fcu.showingSlot
  let frame := match showing with
    | some k => (s.fcu.slots[k].half.map fun h => h.frameNumber.toNat).getD 0
    | none => 0
  let job := s.ce.jobs.head?
  leBytes 4 s.hku.statusCount.toNat ++ leBytes 4 s.now.toNat ++
    leBytes 1 s.hku.part.code ++ leBytes 1 s.tiu.link.code ++ leBytes 1 s.tiu.flow.code ++ leBytes 1 s.tiu.queue.length ++
    leBytes 1 (flagCode s.hku.layout.isSome) ++ leBytes 1 s.fcu.display.code ++ leBytes 1 (flagCode s.fcu.stopPending) ++
    leBytes 1 s.mu.motion.code ++
    leBytes 1 s.au.playback.code ++ leBytes 1 (flagCode s.au.capturing) ++
    leBytes 1 ((showing.map Fin.val).getD 0xFF) ++ leBytes 1 s.pu.level.val ++
    leBytes 4 frame ++ leBytes 4 s.pu.lastAverage ++ leBytes 4 s.pu.grant ++
    leBytes 1 s.pu.ceiling.val ++ leBytes 1 (flagCode s.ce.paused) ++ leBytes 2 (flagCode job.isSome) ++
    leBytes 4 ((job.map fun j => j.tag.toNat).getD 0) ++
    leBytes 4 ((job.map fun j => j.remaining s.ce.progress).getD 0) ++
    (s.hku.counters.words.map fun w => leBytes 4 w.toNat).flatten ++ List.replicate 168 0

/-- The second half of the status block: zeros and the second copy of the count. -/
def statusRest (count : Word) : List Byte := List.replicate 252 0 ++ leBytes 4 count.toNat

end Sys2Proof.Machine
end

