-- ==== Sys2Proof/Machine/Grant.lean ====
section
/-! DEFINITION. The grants of the DRAM Port (R19): what each client does when it is granted, and the arbiter. Every step but the
four grant rows and POWER_ON comes after the grants that are due (log entry 8), but for the event of a WRITE, or the taking of a
command, that falls together with them (log entries 10 and 55). -/

namespace Sys2Proof.Machine

/-! ### The audio client (R138, R142) -/

/-- The bytes of a cue data read: whole words (R149). -/
def cueReadBytes (frames : Nat) (mono : Bool) : Nat := (frames * cueFrameBytes mono + 3) / 4 * 4

/-- The access of a piece of audio work; a count is taken as it stands at the grant (R142, R144, R148, R149, R155). For the capture
producer word, and for the consumer word of a PLAYBACK_START, that is the model's choice (log entry 46). -/
def Au.access (u : Au) (a : AudioAccess) : Access :=
  match a.work with
  | .cueEntry index _ => ⟨.audio a, 0x180 + 16 * index.val, .read 16, true⟩
  | .cueData addr frames mono => ⟨.audio a, addr, .read (cueReadBytes frames mono), true⟩
  | .playRead addr frames => ⟨.audio a, addr, .read (4 * frames), true⟩
  | .playConsumer => ⟨.audio a, 0x15C, .write ((leBytes 4 u.consumer.toNat).map some), true⟩
  | .captureRecord addr bytes _ _ _ => ⟨.audio a, addr, .write (bytes.map some), true⟩
  | .captureProducer => ⟨.audio a, 0x160, .write ((leBytes 4 u.captureProducer.toNat).map some), true⟩

/-- The audio client makes the access at the front of its list (R138). -/
def State.grantAudio (s : State) : State :=
  match s.au.waiting with
  | a :: rest => { s with port := some (s.au.access a), au.waiting := rest }
  | [] => s

/-! ### The motion client (R67) -/

/-- The other record of the exchange. -/
def Ex.other : Ex → Ex
  | .ex0 => .ex1
  | .ex1 => .ex0

/-- The address of an exchange record (section 4.4). -/
def Ex.addr : Ex → Nat
  | .ex0 => 0x1C0
  | .ex1 => 0x1E0

/-- The length of the pose ring in records; motion runs only with a layout (R58). -/
def State.poseLength (s : State) : Nat := (s.hku.layout.map fun l => l.poseRing.size).getD 0

/-- The base of the pose ring; motion runs only with a layout (R58). -/
def State.poseBase (s : State) : Nat := (s.hku.layout.map fun l => l.poseRing.base).getD 0

/-- The position of a record in a ring of so many records (R68). -/
def ringPosition (sequence : Word) (length : Nat) : Nat := (sequence - 1).toNat % length

/-- The exchange state at the grant of the exchange reset write (R76). -/
def PoseExchange.reset (x : PoseExchange) : PoseExchange :=
  { x with front := .ex0, frontSeq := 0, backSeq := 0, missed := false, indicatorDue := true, resetDue := false }

/-- A write the motion client makes. -/
def motionAccess (kind : AccessKind) (addr : Nat) (bytes : List Byte) : Access :=
  ⟨kind, addr, .write (bytes.map some), true⟩

/-- The motion client makes the access that is due (R67, R68, R73, R74, R76). -/
def State.grantMotion (s : State) : MotionWork → State
  | .exchangeReset =>
    { s with
      mu.pub.exchange := s.mu.pub.exchange.reset
      port := some (motionAccess .exchangeReset 0x1C0 (List.replicate 64 0)) }
  | .ringRestart =>
    { s with
      mu.pub.ringRestartDue := false
      port := some (motionAccess .ringRestart 0x16C (List.replicate 8 0)) }
  | .indicator =>
    { s with
      mu.pub.exchange.indicatorDue := false
      port := some (motionAccess .indicator 0x154 (leBytes 4 s.mu.pub.exchange.indicator)) }
  | .exchangeRecord r =>
    let into := s.mu.pub.exchange.front.other
    { s with
      mu.pub.pending := none
      port := some (motionAccess (.exchangeRecord r into) into.addr r.bytes) }
  | .ringRecord r =>
    let addr := s.poseBase + 32 * ringPosition r.sequence s.poseLength
    { s with mu.pub.headGranted := true, port := some (motionAccess .ringRecord addr r.bytes) }
  | .ringControl r =>
    { s with
      port := some (motionAccess (.ringControl r) 0x16C
        (leBytes 4 (ringPosition r.sequence s.poseLength) ++ leBytes 4 r.sequence.toNat)) }

/-! ### The housekeeping client (R172) -/

/-- A write of given bytes. -/
def writeAccess (kind : AccessKind) (addr : Nat) (bytes : List Byte) : Access :=
  ⟨kind, addr, .write (bytes.map some), true⟩

/-- One access of a RESTART taking (R42, R44, R45); a slot access needs the layout it was listed with. -/
def State.restartAccess (s : State) : RestartStep → Access
  | .slotRead k => ⟨.restart, s.slotHeader k + 32, .read 4, true⟩
  | .slotWrite k rest => writeAccess .restart (s.slotHeader k + 32) (leBytes 1 SlotState.free.code ++ rest)
  | .words => writeAccess .restart 0x140 (List.replicate 52 0)
  | .notices quarter => writeAccess .restart (0x800 + 256 * quarter.val) (List.replicate 256 0)

/-- The housekeeping client makes the access that is due (R172). A status block write shows the snapshot taken before the status
write count is raised (R176, log entry 41). -/
def State.grantHousekeeping (s : State) : HousekeepingWork → State
  | .restart step => { s with port := some (s.restartAccess step) }
  | .noticeEntry p => { s with port := some (writeAccess .noticeEntry (0x800 + 16 * p.position) p.bytes) }
  | .noticeProducer =>
    { s with
      port := some (writeAccess (.noticeProducer s.hku.noticeWritten) 0x148 (leBytes 4 s.hku.noticeWritten.toNat)) }
  | .partHalf k =>
    { s.updateSlot k fun x => { x with headerDue := false } with
      port := some (writeAccess (.partHalf k) (s.slotHeader k + 32) s.fcu.slots[k].partHalf) }
  | .statusFirst =>
    { s with
      hku := { s.hku with
        statusCount := s.hku.statusCount + 1
        statusDue := false
        permit := true
        statusRest := some (statusRest s.hku.statusCount) }
      port := some (writeAccess .statusFirst 0x200 s.statusFirst) }
  | .statusSecond bytes =>
    { s with hku.statusRest := none, port := some (writeAccess .statusSecond 0x300 bytes) }
  | .commandConsumer =>
    { s with
      hku.consumerDue := false
      port := some (writeAccess .commandConsumer 0x144 (leBytes 4 s.hku.consumer.toNat)) }
  | .commandRecord =>
    { s with hku.work := .taking (recordOf (s.mem.readBytes (recordAddr s.hku.consumer) 32)) }
  | .layoutTable r =>
    { s with hku.work := .tableReading r, port := some ⟨.layoutTable, 0x100, .read 64, true⟩ }

/-! ### The copy client (R129, R130) -/

/-- The length of the next segment (R129). -/
def Job.segment (j : Job) (p : Progress) : Nat := min Config.accessLimit (j.rowBytes - p.bytesDone)

/-- The offset of the next segment from the address of row 0, with a stride (R125, R129). -/
def Job.offset (j : Job) (p : Progress) (stride : Nat) : Nat :=
  if j.descending then (j.rows - 1 - p.rowsDone) * stride + (j.rowBytes - p.bytesDone - j.segment p)
  else p.rowsDone * stride + p.bytesDone

/-- The pattern over so many bytes of whole words (R125). -/
def patternBytes (pattern : Word) (len : Nat) : List Byte := (List.replicate (len / 4) (leBytes 4 pattern.toNat)).flatten

/-- The next access of the running job (R129, R130). -/
def Job.nextAccess (j : Job) (p : Progress) : Access :=
  match j.kind, p.held with
  | .copy, none => ⟨.copyRead, j.source + j.offset p j.sourceStride, .read (j.segment p), true⟩
  | .copy, some bytes => ⟨.copyWrite, j.dest + j.offset p j.destStride, .write (bytes.map some), true⟩
  | .fill, _ =>
    ⟨.copyWrite, j.dest + j.offset p j.destStride, .write ((patternBytes j.pattern (j.segment p)).map some), true⟩

/-- The copy client makes the next access of the running job; none when the engine is paused, the job is aborting or there is none
(R130, R131). -/
def State.grantCopy (s : State) : State :=
  match s.ce.jobs with
  | j :: _ => if s.ce.paused || j.aborting then s else { s with port := some (j.nextAccess s.ce.progress) }
  | [] => s

/-! ### The arbiter (R19) -/

/-- A free port is granted to the client of the highest priority that has an access waiting. Scan-out and the inbound client have
theirs at once after every step (State.arbitrate), so one that waits here holds the port back from the clients below it. -/
def State.grantFirst (s : State) : State :=
  if s.audioMayGo then
    match s.au.waiting, s.inboundWaiting, s.mu.pub.due, s.housekeepingDue with
    | _ :: _, _, _, _ => s.grantAudio
    | [], true, _, _ => s
    | [], false, some w, _ => s.grantMotion w
    | [], false, none, some w => s.grantHousekeeping w
    | [], false, none, none => s.grantCopy
  else s

/-- The state with every grant made that is due (R19). The read of a command record leaves the port free (log entry 11), and a
second grant may then be due. -/
def State.granted (s : State) : State := s.grantFirst.grantFirst

/-- The state in which an event is taken at headset time `t`. An event and a grant that fall together may be taken in either order (R75,
R131): an event at the time of the step before it comes before the grants that are due, and the grant rows are there for the other order;
a later event comes after them (log entries 10 and 55). -/
def State.beforeEvent (s : State) (t : Time) : State := if t = s.now then s else s.granted

/-- The state in which a command is taken at headset time `t`: a record that has been read is taken as an event is, since the port is
free from its read on (R131, R166, log entry 55); else the grants that are due come first, the read of a record among them. -/
def State.beforeTaking (s : State) (t : Time) : State :=
  match s.hku.work with
  | .taking _ => s.beforeEvent t
  | .idle | .tableDue _ | .tableReading _ | .halves _ | .restarting _ => s.granted

/-! ### Completions -/

/-- The completion of the access at the port, for the kinds of access the step is about, the grants due being made: the port is
free, memory holds the access's effect (R18), and `k` says what its owner does, given what `select` found, the live mark and the
bytes of the span. -/
def State.portDone {α : Type} (s : State) (t : Time) (select : AccessKind → Option α)
    (k : α → Bool → List Byte → State → State) : Res :=
  let s := s.granted
  match s.port with
  | none => .next s
  | some a =>
    match select a.kind with
    | none => .next s
    | some x =>
      if a.stop ≤ Config.dramSize then
        .next (k x a.live (a.fetch s.mem) (s.served t a)).settle
      else .fault (.outsideDram a.addr)

end Sys2Proof.Machine
end

