-- ==== Sys2Proof/Machine/Tether.lean ====
section
/-! DEFINITION. The tether link and the inbound path (R1 to R25): LINK_UP, LINK_DOWN, BAD_MESSAGE, WRITE, READ, TIME_MARK,
REQUEST_TAKE, INBOUND_WRITE_DONE, INBOUND_READ_DONE, UPSTREAM_MESSAGE_SENT. -/

namespace Sys2Proof.Machine

/-- LINK_UP: training completes; HOLD is sent when the queue holds 48 or more requests (R1, R14). -/
def execLinkUp (t : Time) (s : State) : Res :=
  let s := s.granted
  s.fire t (s.hku.part = .ready && s.tiu.link = .down) fun s =>
    let u := { s.tiu with link := .up }
    { s with tiu := if Config.holdCount ≤ u.queue.length ∧ u.flow = .running then u.sendFlow .hold .held else u }

/-- The tags of the OK answers in an upstream order. -/
def okTags (order : List Upstream) : List (Fin 32) :=
  order.filterMap fun
    | .readData tag .ok _ => some tag
    | .readData _ _ _ | .attention _ _ => none

/-- LINK_DOWN: the upstream order is discarded, each discarded OK answer frees its tag, the flow state becomes RUNNING (R17). -/
def execLinkDown (t : Time) (s : State) : Res :=
  let s := s.granted
  s.fire t (s.tiu.link = .up) fun s =>
    { s with
      tiu := (okTags s.tiu.order).foldl (fun u tag => u.setTag tag .free)
        { s.tiu with link := .down, flow := .running, order := [], flowOut := [], sending := none } }

/-- A message that fails its check or is not well formed is counted and discarded (R2). -/
def State.discardMessage (s : State) : State :=
  { s with hku.counters.linkErrors := s.hku.counters.linkErrors + 1 }

/-- BAD_MESSAGE (R2). Messages arrive only while the link is UP (R1). -/
def execBadMessage (t : Time) (s : State) : Res :=
  let s := s.granted
  s.fire t (s.tiu.link = .up) State.discardMessage

/-- A request joins the tail of the queue; HOLD is sent when the count becomes 48 while RUNNING (R7, R12). -/
def Tiu.join (u : Tiu) (r : Request) : Tiu :=
  let v := { u with queue := u.queue ++ [r] }
  if v.queue.length = Config.holdCount ∧ v.flow = .running then v.sendFlow .hold .held else v

/-- A well-formed WRITE arrives: range check, then queue check (R4, R6, R7). -/
def State.arriveWrite (s : State) (addr : Word) (len : Nat) (data : List Byte) : State :=
  if addr.toNat + len > Config.dramSize then
    { s with hku.counters.outOfRangeWrites := s.hku.counters.outOfRangeWrites + 1 }.post (.outOfRangeWrite len addr)
  else if Config.queueLimit ≤ s.tiu.queue.length then
    { s with hku.counters.overrunWrites := s.hku.counters.overrunWrites + 1 }
  else { s with tiu := s.tiu.join (.write addr len data) }

/-- WRITE (R2, R4, R6, R7). -/
def execWrite (t : Time) (addr : Word) (len : Half) (data : List Byte) (s : State) : Res :=
  let s := s.granted
  s.fire t (s.tiu.link = .up) fun s =>
    if writeOk addr len data then s.arriveWrite addr len.toNat data else s.discardMessage

/-- A well-formed READ arrives: range check, tag check, queue check (R4 to R7). -/
def State.arriveRead (s : State) (addr : Word) (len : Nat) (tag : Fin 32) : State :=
  if addr.toNat + len > Config.dramSize then { s with tiu := s.tiu.refuse tag .outOfRange }
  else if s.tiu.tags[tag] = .outstanding then { s with tiu := s.tiu.refuse tag .tagInUse }
  else if Config.queueLimit ≤ s.tiu.queue.length then { s with tiu := s.tiu.refuse tag .refusedFull }
  else { s with tiu := (s.tiu.setTag tag .outstanding).join (.read addr len tag) }

/-- READ (R2, R4 to R7). -/
def execRead (t : Time) (addr : Word) (len : Half) (tag : Byte) (s : State) : Res :=
  let s := s.granted
  s.fire t (s.tiu.link = .up) fun s =>
    if readOk addr len tag then s.arriveRead addr len.toNat (Fin.ofNat 32 tag.toNat) else s.discardMessage

/-- TIME_MARK: its notice is posted at once, whatever the queue holds (R3, R177). -/
def execTimeMark (t : Time) (markId : Byte) (consoleTime : BitVec 64) (s : State) : Res :=
  let s := s.granted
  s.fire t (s.tiu.link = .up) fun s => s.post (.timeMark markId consoleTime)

/-- Counts a WRITE with refused bytes, and posts REFUSED_WRITE when the permit is set (R23). -/
def State.noteRefused (s : State) (addr : Word) (refused : Nat) : State :=
  if refused = 0 then s
  else
    let s := { s with hku.counters.refusedWrites := s.hku.counters.refusedWrites + 1 }
    if s.hku.permit then { s with hku.permit := false }.post (.refusedWrite refused addr) else s

/-- A WRITE is taken: classified at this moment, and its access presented unless every byte is refused (R9, R20, R23). -/
def State.takeWrite (s : State) (addr : Word) (len : Nat) (data : List Byte) : State :=
  let bytes := s.landing addr.toNat data
  let access : Access := ⟨.inboundWrite (s.covered addr.toNat len), addr.toNat, .write bytes, true⟩
  let s := s.noteRefused addr (bytes.countP fun b => b.isNone)
  if bytes.all fun b => b.isNone then s else { s with tiu.service := .presented access }

/-- RESUME is sent when a take brings the count to 16 while HELD (R13). -/
def Tiu.afterTake (u : Tiu) : Tiu :=
  if u.queue.length = Config.resumeCount ∧ u.flow = .held then u.sendFlow .resume .running else u

/-- REQUEST_TAKE: with no request in service, the head of the queue is taken (R8, R9). R8 gives no moment for it. It comes after the grants
that are due, so an access of a lower priority that waits when the request before completes is served between the two: the model's choice
(log entry 52). -/
def execRequestTake (t : Time) (s : State) : Res :=
  let s := s.granted
  match s.tiu.queue with
  | [] => .next s
  | r :: rest =>
    s.fire t (s.tiu.service = .idle) fun s =>
      let s := { s with tiu := { s.tiu with queue := rest }.afterTake }
      match r with
      | .write addr len data => s.takeWrite addr len data
      | .read addr len tag => { s with tiu.service := .presented ⟨.inboundRead tag, addr.toNat, .read len, true⟩ }

/-- The service that is left with events to raise. -/
def serviceOf (events : List (Watched × Word)) : Service := if events = [] then .idle else .raising events

/-- INBOUND_WRITE_DONE: the landing bytes are in memory, and each covered watched word that landed raises its event with the
value it now holds, in ascending order of address (R24). -/
def execInboundWriteDone (t : Time) (s : State) : Res :=
  s.portDone t
    (fun
      | .inboundWrite watched => some watched
      | _ => none)
    fun watched _ _ s => { s with tiu.service := serviceOf (watched.map fun w => (w.1, s.mem.word w.2)) }

/-- INBOUND_READ_DONE: the OK answer joins the upstream order, or is discarded and its tag freed while the link is DOWN (R10). So the
answer of a READ queued before a loss of the link that completes after the link is UP again joins the order: the model's choice between
R10 and the note after R17 (log entry 51). -/
def execInboundReadDone (t : Time) (s : State) : Res :=
  s.portDone t
    (fun
      | .inboundRead tag => some tag
      | _ => none)
    fun tag _ bytes s =>
      let u := { s.tiu with service := .idle }
      { s with
        tiu := if u.link = .up then { u with order := u.order ++ [.readData tag .ok bytes] } else u.setTag tag .free }

/-- UPSTREAM_MESSAGE_SENT: the message in transmission has left; an OK answer frees its tag (R5, R15). -/
def execUpstreamMessageSent (t : Time) (s : State) : Res :=
  let s := s.granted
  s.fire t s.tiu.sending.isSome fun s =>
    let u := { s.tiu with sending := none }
    { s with
      tiu := match s.tiu.sending, u.order with
        | some .order, .readData tag .ok _ :: rest => { u with order := rest }.setTag tag .free
        | some .order, _ :: rest => { u with order := rest }
        | some .order, [] => u
        | some .flow, _ => { u with flowOut := u.flowOut.tail }
        | none, _ => u }

end Sys2Proof.Machine
end

