-- ==== Sys2Proof/Machine/Watch.lean ====
section
/-! DEFINITION. The watched-word events (R24), each taken by its owning block: COMMAND_PRODUCER, NOTICE_CONSUMER, POSE_HOLD,
PLAYBACK_PRODUCER, CAPTURE_CONSUMER, CUE_REQUEST, SUBMIT_WORD. -/

namespace Sys2Proof.Machine

/-- The event at the head of those being raised is taken, when it is of the words the step is about, before the grants that fall
together with it (R24, R75, log entry 10). The service ends with its last event. -/
def State.takeEvent {α : Type} (s : State) (t : Time) (select : Watched → Option α)
    (k : α → Word → State → State) : Res :=
  match s.tiu.service with
  | .raising ((w, v) :: rest) =>
    match select w with
    | some x => (s.beforeEvent t).fire t true fun s => k x v { s with tiu.service := serviceOf rest }
    | none => .next s.granted
  | .raising [] | .idle | .atPort | .presented _ => .next s.granted

/-- The comparison of the latest producer value with the consumer count (R36). -/
def State.compareProducer (s : State) : State :=
  let d := signedDiff s.hku.latest s.hku.consumer
  let s := { s with hku.compareDue := false }
  if 32 < d then
    { s with hku.consumer := s.hku.latest - 32, hku.consumerDue := true }.post
      (.commandsLost (BitVec.ofInt 32 (d - 32)) (s.hku.latest - 32))
  else if d < 0 then
    { s with hku.consumer := s.hku.latest, hku.consumerDue := true }.post (.commandsLost 0 s.hku.latest)
  else s

/-- The HKU takes a producer value: compared at once between records, else after the record being read or taken (R36, log
entry 12). When several events come before the record has been taken, the one comparison after it is that of the last value: the model's
choice (log entry 53). -/
def State.takeProducer (s : State) (v : Word) : State :=
  let s := { s with hku.latest := v }
  if s.hku.work = .idle then s.compareProducer else { s with hku.compareDue := true }

/-- COMMAND_PRODUCER (R36). -/
def execCommandProducer (t : Time) (s : State) : Res :=
  s.takeEvent t (fun w => if w = .commandProducer then some () else none) fun _ v s => s.takeProducer v

/-- A consumer value held to within a limit behind its producer (R156, R171). -/
def heldConsumer (producer value : Word) (limit : Nat) : Word :=
  if signedDiff producer value < 0 then producer
  else if signedDiff producer value ≤ limit then value
  else producer - BitVec.ofNat 32 limit

/-- NOTICE_CONSUMER (R171). -/
def execNoticeConsumer (t : Time) (s : State) : Res :=
  s.takeEvent t (fun w => if w = .noticeConsumer then some () else none) fun _ v s =>
    { s with hku.noticeConsumer := heldConsumer s.hku.noticeProducer v Config.noticeLimit }

/-- The exchange flips: the back record becomes the front (R73, R75). -/
def PoseExchange.flip (x : PoseExchange) : PoseExchange :=
  { x with
    front := x.front.other
    frontSeq := x.backSeq
    backSeq := x.frontSeq
    missed := false
    indicatorDue := true }

/-- A write of the pose hold word (R75). -/
def Mu.takeHold (m : Mu) (v : Word) : Mu :=
  let x := m.pub.exchange
  if v ≠ 0 then { m with pub.exchange := { x with hold := true } }
  else if m.motion ≠ .off ∧ x.resetDue = false ∧ x.missed = true then
    { m with pub.exchange := { x with hold := false }.flip }
  else { m with pub.exchange := { x with hold := false } }

/-- POSE_HOLD (R75). -/
def execPoseHold (t : Time) (s : State) : Res :=
  s.takeEvent t (fun w => if w = .poseHold then some () else none) fun _ v s => { s with mu := s.mu.takeHold v }

/-- PLAYBACK_PRODUCER: the value is not checked (R139). -/
def execPlaybackProducer (t : Time) (s : State) : Res :=
  s.takeEvent t (fun w => if w = .playbackProducer then some () else none) fun _ v s => { s with au.producer := v }

/-- A write of the capture consumer word (R156). Without a layout there is no ring length to hold a value behind the producer
by: the count is a free value (log entry 23). -/
def State.takeCaptureConsumer (s : State) (v : Word) : State :=
  match s.captureLength with
  | some len => { s with au.captureConsumer := heldConsumer s.au.captureProducer v len }
  | none =>
    if signedDiff s.au.captureProducer v ≤ 0 then { s with au.captureConsumer := s.au.captureProducer }
    else { s with au.captureConsumer := Config.freeCount s.freeIndex, freeIndex := s.freeIndex + 1 }

/-- CAPTURE_CONSUMER (R156). -/
def execCaptureConsumer (t : Time) (s : State) : Res :=
  s.takeEvent t (fun w => if w = .captureConsumer then some () else none) fun _ v s => s.takeCaptureConsumer v

/-- A write of the cue request word (R147; its bits, section 11.3). -/
def State.takeCueRequest (s : State) (v : Word) : State :=
  if v.getLsbD 31 then
    let cue : Fin 4 × CueMode := (Fin.ofNat 4 v.toNat, if v.getLsbD 8 then .duck else .mix)
    let s := match s.au.pendingCue with
      | some (index, mode) => s.post (.cueReplaced index mode)
      | none => s
    { s with au.pendingCue := some cue }
  else s

/-- CUE_REQUEST (R147). -/
def execCueRequest (t : Time) (s : State) : Res :=
  s.takeEvent t (fun w => if w = .cueRequest then some () else none) fun _ v s => s.takeCueRequest v

/-- The slot record of a submission (R82, R86). -/
def Slot.submitted (x : Slot) (v : Word) : Slot :=
  { x with
    state := if x.copyPending = 0 then .queued else .waiting
    submitValue := v
    shown := 0
    firstShown := 0
    flags := ⟨false, false, false, false, false⟩
    outcome := .none
    shift := ⟨0, 0, 0⟩
    headerDue := true }

/-- A nonzero value submits a FREE slot (R82); its write landed only because the slot was FREE. -/
def Fcu.submit (f : Fcu) (k : Fin 4) (v : Word) : Fcu :=
  if v ≠ 0 ∧ f.slots[k].state = .free then
    let g := f.update k (·.submitted v)
    if f.slots[k].copyPending = 0 then { g with queue := g.queue ++ [k] } else g
  else f

/-- SUBMIT_WORD (R82). -/
def execSubmitWord (t : Time) (s : State) : Res :=
  s.takeEvent t
    (fun
      | .submit k => some k
      | _ => none)
    fun k v s => { s with fcu := s.fcu.submit k v }

end Sys2Proof.Machine
end

