-- ==== Sys2Proof/Machine/Command.lean ====
section
/-! DEFINITION. The command ring and the HKU's own commands (chapter 2): UNKNOWN_COMMAND, APPLY_LAYOUT, LAYOUT_TABLE_READ,
PART_HALF_WRITE_DONE, RESTART, RESTART_WRITE_DONE, COMMAND_CONSUMER_WRITE_DONE. -/

namespace Sys2Proof.Machine

/-- The command read is taken, when its code is one the step is about (R37, log entry 11), before the grants that fall together with it
(log entry 55). It waits for no access. -/
def State.takeRecord (s : State) (t : Time) (isCode : Half → Bool) (k : Record → State → State) : Res :=
  let u := s.beforeTaking t
  match u.hku.work with
  | .taking r => if isCode r.code then u.fire t true (k r) else .next s.granted
  | .idle | .tableDue _ | .tableReading _ | .halves _ | .restarting _ => .next s.granted

/-- The taking ends: the consumer count passes the record, its word is due, and a comparison put off is made (R36, R37). -/
def State.finishTaking (s : State) : State :=
  let s := { s with hku.consumer := s.hku.consumer + 1, hku.consumerDue := true, hku.work := .idle }
  if s.hku.compareDue then s.compareProducer else s

/-- A command is refused: CMD_REFUSED with the ring index, code, tag and reason, before the consumer count passes it (R41). -/
def State.refuse (s : State) (r : Record) (reason : Reason) : State :=
  (s.post (.cmdRefused reason none s.hku.consumer r.code r.tag)).finishTaking

/-- UNKNOWN_COMMAND: a code that is no command of the table (R40). -/
def execUnknownCommand (t : Time) (s : State) : Res :=
  s.takeRecord t (fun c => !commandCodes.contains c) fun r s => s.refuse r .unknown

/-- COMMAND_CONSUMER_WRITE_DONE: the word is in memory; the next record may be read (R37). -/
def execCommandConsumerWriteDone (t : Time) (s : State) : Res :=
  s.portDone t
    (fun
      | .commandConsumer => some ()
      | _ => none)
    fun _ _ _ s => s

/-! ### APPLY_LAYOUT (R33 to R35) -/

/-- An audio access presented at the boundary that stopped a stream is not yet complete (R33). -/
def State.streamsSettling (s : State) : Bool :=
  (s.au.waiting.any fun a => a.stopping) ||
  match s.port with
  | some ⟨.audio a, _, _, _⟩ => a.stopping
  | _ => false

/-- Every unit that uses a region is idle (R33). -/
def State.regionsIdle (s : State) : Bool :=
  s.fcu.display == .off && s.mu.motion == .off && s.au.playback == .stopped && !s.au.capturing && !s.streamsSettling &&
    s.ce.jobs.isEmpty

/-- APPLY_LAYOUT: refused NOT_IDLE, or the region table is to be read (R33, R34). -/
def execApplyLayout (t : Time) (s : State) : Res :=
  s.takeRecord t (· == 0x0010) fun r s =>
    if s.regionsIdle then { s with hku.work := .tableDue r } else s.refuse r .notIdle

/-- A slot record as APPLY_LAYOUT leaves it: FREE, every part-half field zero, its header due (R35, R80). -/
def Slot.laidOut : Slot := { Slot.initial with headerDue := true }

/-- A sound table is applied (R35). The capture consumer count follows R35 where R136 says that no AU state changes: the model's
choice, log entry 47. -/
def State.applyLayout (s : State) (l : Layout) : State :=
  let lead := (s.au.captureProducer - s.au.captureConsumer).toNat
  { s with
    hku.layout := some l
    hku.work := .halves allSlots
    fcu.slots := Vector.replicate 4 Slot.laidOut
    fcu.queue := []
    au.captureConsumer :=
      if l.capture.size < lead then s.au.captureProducer - BitVec.ofNat 32 l.capture.size else s.au.captureConsumer }

/-- The table read is refused BAD_LAYOUT with its first fault, or applied (R34, R35). -/
def State.checkTable (s : State) (r : Record) (l : Layout) : State :=
  match l.fault s.hku.settings.slotSize with
  | some f => (s.post (.cmdRefused .badLayout (some f) s.hku.consumer r.code r.tag)).finishTaking
  | none => s.applyLayout l

/-- LAYOUT_TABLE_READ: the table is checked, and refused BAD_LAYOUT or applied (R34, R35). -/
def execLayoutTableRead (t : Time) (s : State) : Res :=
  s.portDone t
    (fun
      | .layoutTable => some ()
      | _ => none)
    fun _ _ bytes s =>
      match s.hku.work with
      | .tableReading r => s.checkTable r (layoutOf bytes)
      | .idle | .taking _ | .tableDue _ | .halves _ | .restarting _ => s

/-- PART_HALF_WRITE_DONE: once one has completed for each of the four slots, an APPLY_LAYOUT taking ends (R35). -/
def execPartHalfWriteDone (t : Time) (s : State) : Res :=
  s.portDone t
    (fun
      | .partHalf k => some k
      | _ => none)
    fun k _ _ s =>
      match s.hku.work with
      | .halves left =>
        if left.erase k = [] then s.finishTaking else { s with hku.work := .halves (left.erase k) }
      | .idle | .taking _ | .tableDue _ | .tableReading _ | .restarting _ => s

/-! ### RESTART (R42 to R46) -/

/-- A slot record after RESTART (R42, R80, log entry 27). -/
def Slot.restarted (x : Slot) : Slot :=
  { x with state := .free, copyPending := 0, shown := 0, submitValue := 0, half := none, headerDue := false }

/-- The FCU after RESTART (R42, R88). -/
def Fcu.restarted (f : Fcu) : Fcu :=
  { f with
    slots := f.slots.map Slot.restarted
    queue := []
    display := .off
    stopPending := false
    contentLost := false
    ramp := none
    boundary := none }

/-- The SSU after RESTART (R101). -/
def Ssu.restarted (u : Ssu) (c : Settings) : Ssu :=
  { u with
    lit := 0
    trims := c.trims
    requested := none
    results := .initial
    stale := false
    output := .dark
    chosen := none
    rowsDue := 0
    scan := none
    litInterval := false
    left := { u.left with frame := none }
    right := { u.right with frame := none } }

/-- Publication after RESTART (R43, R78). -/
def Publication.restarted (p : Publication) : Publication :=
  { p with
    list := []
    headGranted := false
    headWritten := false
    history := []
    pending := none
    exchange := .initial
    ringRestartDue := false }

/-- The MU after RESTART (R43, R47). The gathered flags, sample count, first-sample flag and rate-change mark are kept: the model's
choice, log entry 44. -/
def Mu.restarted (m : Mu) (c : Settings) : Mu :=
  let n := { m with motion := .off, stall := none, bias := c.bias, pub := m.pub.restarted }
  if m.motion = .off then n else n.beginStop

/-- The AU after RESTART (R43, R136). -/
def Au.restarted (a : Au) : Au :=
  { a with
    playback := .stopped
    playbackStop := false
    producer := 0
    consumer := 0
    cue := none
    pendingCue := none
    startingCue := none
    capturing := false
    captureStop := false
    captureProducer := 0
    captureConsumer := 0
    captureSeq := 0
    gathering := none
    overflow := false
    waiting := [] }

/-- The PU after RESTART but for its level (R43, R157). -/
def Pu.restarted (p : Pu) : Pu :=
  { p with accumulator := 0, sampleCount := 0, overCount := 0, underCount := 0, hold := 0, rail := false }

/-- The accesses a RESTART taking makes (R42, R44, R45, log entry 24). -/
def Hku.restartSteps (h : Hku) : List RestartStep :=
  (if h.layout.isSome then allSlots.map .slotRead else []) ++ [.words, .notices 0, .notices 1, .notices 2, .notices 3]

/-- The HKU after RESTART, before RESTARTED is posted (R44, R45, R175). -/
def Hku.restarted (h : Hku) (now : Time) (display : DisplayState) : Hku :=
  { h with
    consumer := 0
    latest := 0
    compareDue := false
    consumerDue := false
    work := .restarting h.restartSteps
    noticeProducer := 0
    noticeWritten := 0
    noticeShown := 0
    noticeConsumer := 0
    writeList := []
    unshown := []
    statusTimer := if display = .blank ∨ display = .showing then some (now + Config.statusPeriod) else h.statusTimer
    statusCount := 0
    permit := true
    counters := .zero }

/-- The accesses whose owner RESTART stops: they complete and do no more (R18, R42, R77, R101). The notice writes among them are the
model's choice, log entry 48. -/
def AccessKind.droppedByRestart : AccessKind → Bool
  | .consoleHalf _ | .pixels _ | .exchangeReset | .ringRestart | .indicator | .exchangeRecord _ _ | .ringRecord
  | .ringControl _ | .copyRead | .copyWrite | .noticeEntry | .noticeProducer _ => true
  | .audio a => match a.work with
    | .cueEntry _ _ => true
    | .cueData .. | .playRead .. | .playConsumer | .captureRecord .. | .captureProducer => false
  | .inboundWrite _ | .inboundRead _ | .bootIdentity | .bootFields | .bootSettings | .bootZero _ | .restart
  | .partHalf _ | .statusFirst | .statusSecond | .commandConsumer | .layoutTable => false

/-- The effects of RESTART at one moment, and its notice (R42 to R46). -/
def State.restart (s : State) (r : Record) : State :=
  let c := s.hku.settings
  { s with
    hku := (s.hku.restarted s.now s.fcu.display).post s.now (.restarted s.hku.consumer r.tag)
    fcu := s.fcu.restarted
    ssu := s.ssu.restarted c
    mu := s.mu.restarted c
    au := s.au.restarted
    pu := s.pu.restarted
    ce := ⟨[], .none, s.ce.paused⟩ }.setLevel s.pu.ceiling |>.dropAccess AccessKind.droppedByRestart

/-- RESTART: never refused (R42 to R46). -/
def execRestart (t : Time) (s : State) : Res :=
  s.takeRecord t (· == 0x0011) fun r s => s.restart r

/-- The RESTART taking ends: the consumer word of 0 is due, and a comparison put off is made (R44). -/
def State.finishRestart (s : State) : State :=
  let s := { s with hku.consumerDue := true, hku.work := .idle }
  if s.hku.compareDue then s.compareProducer else s

/-- RESTART_WRITE_DONE: an access of the RESTART taking completes; a slot's word read is followed by its write (R42, R45). -/
def execRestartWriteDone (t : Time) (s : State) : Res :=
  s.portDone t
    (fun
      | .restart => some ()
      | _ => none)
    fun _ _ bytes s =>
      match s.hku.work with
      | .restarting (.slotRead k :: rest) =>
        { s with hku.work := .restarting (.slotWrite k (bytes.drop 1) :: rest) }
      | .restarting (_ :: []) => s.finishRestart
      | .restarting (_ :: rest) => { s with hku.work := .restarting rest }
      | .restarting [] | .idle | .taking _ | .tableDue _ | .tableReading _ | .halves _ => s

end Sys2Proof.Machine
end

