-- ==== Sys2Proof/Machine/Audio.lean ====
section
/-! DEFINITION. Audio playback, cues and capture (chapter 8): PLAYBACK_START, PLAYBACK_STOP, SET_VOLUME, CAPTURE_START,
CAPTURE_STOP, BLOCK_BOUNDARY, CUE_ENTRY_READ, CAPTURE_RECORD_WRITE_DONE, AUDIO_GRANT, AUDIO_ACCESS_DONE, CODEC_FRAME. -/

namespace Sys2Proof.Machine

/-! ### Commands -/

/-- A PLAYBACK_START is taken; its consumer word write goes behind any access already waiting (R138, R140). -/
def State.startPlayback (s : State) (threshold volume : Nat) : State :=
  { s with
    au.threshold := min threshold (s.playbackLength / Config.blockFrames)
    au.requestedVolume := some volume
    au.consumer := s.au.producer
    au.waiting := s.au.waiting ++ [⟨.playConsumer, false, false⟩]
    au.playback := .priming }

/-- PLAYBACK_START (R140). -/
def execPlaybackStart (t : Time) (s : State) : Res :=
  s.takeRecord t (· == 0x0040) fun r s =>
    if !(1 ≤ r.param 4 && r.param 4 ≤ 64 && r.param 8 ≤ 32768) then s.refuse r .badParam
    else if s.hku.layout.isNone then s.refuse r .noLayout
    else if s.au.playback ≠ .stopped then s.refuse r .busy
    else (s.startPlayback (r.param 4) (r.param 8)).finishTaking

/-- PLAYBACK_STOP (R141). -/
def execPlaybackStop (t : Time) (s : State) : Res :=
  s.takeRecord t (· == 0x0041) fun r s =>
    if s.au.playback = .stopped then s.refuse r .notRunning else { s with au.playbackStop := true }.finishTaking

/-- SET_VOLUME (R152). -/
def execSetVolume (t : Time) (s : State) : Res :=
  s.takeRecord t (· == 0x0042) fun r s =>
    if r.param 4 ≤ 32768 then { s with au.requestedVolume := some (r.param 4) }.finishTaking else s.refuse r .badParam

/-- CAPTURE_START (R153). -/
def execCaptureStart (t : Time) (s : State) : Res :=
  s.takeRecord t (· == 0x0043) fun r s =>
    if s.hku.layout.isNone then s.refuse r .noLayout
    else if s.au.capturing then s.refuse r .busy
    else { s with au.capturing := true, au.captureSeq := 1 }.finishTaking

/-- CAPTURE_STOP (R153). -/
def execCaptureStop (t : Time) (s : State) : Res :=
  s.takeRecord t (· == 0x0044) fun r s =>
    if s.au.capturing then { s with au.captureStop := true }.finishTaking else s.refuse r .notRunning

/-! ### Playback at a block boundary (R142 to R145)

Each part of a boundary answers the state and the accesses it calls for. -/

/-- The 48 frames from a count on, in runs at consecutive addresses: a run ends at the ring end and where the count wraps
(R144). At most three runs. -/
def playRuns (base length : Nat) : Nat → Nat → Nat → List AudioWork
  | 0, _, _ => []
  | fuel + 1, count, left =>
    let n := min left (min (length - count % length) (4294967296 - count))
    if left = 0 then []
    else .playRead (base + 4 * (count % length)) n :: playRuns base length fuel ((count + n) % 4294967296) (left - n)

/-- A block is played from the ring (R144). -/
def State.playBlock (s : State) : State × List AudioWork :=
  let base := (s.hku.layout.map fun l => l.playback.base).getD 0
  ({ s with au.consumer := s.au.consumer + BitVec.ofNat 32 Config.blockFrames },
    playRuns base s.playbackLength 3 s.au.consumer.toNat Config.blockFrames ++ [.playConsumer])

/-- The frames available: producer minus consumer, unsigned (section 8.2). -/
def Au.available (a : Au) : Nat := (a.producer - a.consumer).toNat

/-- The overrun of R142: the consumer jumps to one ring length behind the producer. -/
def State.settleOverrun (s : State) : State :=
  let length := s.playbackLength
  if length < s.au.available then
    let consumer := s.au.producer - BitVec.ofNat 32 length
    { s with au.consumer := consumer }.post (.playbackOverrun (BitVec.ofNat 32 (s.au.available - length)) consumer)
  else s

/-- A starved block (R145). -/
def State.starve (s : State) : State :=
  { s with
    au.playback := .priming
    hku.counters.underruns := s.hku.counters.underruns + 1 }.post
      (.playbackStarved s.au.consumer (BitVec.ofNat 32 s.au.available))

/-- The playback stream at a block boundary (R142 to R145). -/
def State.settlePlayback (s : State) : State × List AudioWork :=
  let s := if s.au.playbackStop then { s with au.playbackStop := false, au.playback := .stopped } else s
  match s.au.playback with
  | .stopped =>
    if s.au.consumer = s.au.producer then (s, []) else ({ s with au.consumer := s.au.producer }, [.playConsumer])
  | .priming =>
    let s := s.settleOverrun
    if s.au.threshold * Config.blockFrames ≤ s.au.available then { s with au.playback := .playing }.playBlock else (s, [])
  | .playing =>
    let s := s.settleOverrun
    if Config.blockFrames ≤ s.au.available then s.playBlock else (s.starve, [])

/-! ### Cues at a block boundary (R148, R149) -/

/-- A current cue with no frames left ends (R149). -/
def State.endCue (s : State) : State :=
  match s.au.cue with
  | some c => if c.played < c.length then s else { s with au.cue := none }.post (.cueDone c.index c.mode c.length)
  | none => s

/-- The frames a cue's next read takes (R149). -/
def Cue.nextFrames (c : Cue) : Nat := min Config.blockFrames (c.length - c.played)

/-- The next data read of a cue (R149). -/
def Cue.nextRead (c : Cue) : AudioWork := .cueData (c.addr + c.played * cueFrameBytes c.mono) c.nextFrames c.mono

/-- The cue after that read. -/
def Cue.advance (c : Cue) : Cue := { c with played := c.played + c.nextFrames }

/-- The cue at a block boundary (R148, R149). A cue whose entry is still being read keeps the place of the current cue (log
entry 20). -/
def State.settleCue (s : State) : State × List AudioWork :=
  let s := s.endCue
  match s.au.cue, s.au.startingCue, s.au.pendingCue with
  | some c, _, _ =>
    ({ s with au.cue := some c.advance, au.block.duck := c.mode == .duck }, [c.nextRead])
  | none, none, some p => ({ s with au.startingCue := some p, au.pendingCue := none }, [.cueEntry p.1 p.2])
  | none, _, _ => (s, [])

/-! ### Volume and capture at a block boundary (R151, R154, R155) -/

/-- The requested volume applies, and the gain of the block is fixed (R150, R151). -/
def State.settleVolume (s : State) : State :=
  let volume := s.au.requestedVolume.getD s.au.volume
  { s with au.volume := volume, au.requestedVolume := none, au.block.gain := min volume s.caps.gain }

/-- A complete block is recorded, or dropped for want of room (R155). The overflow episode ends at the boundary that records a block, not
at the end of its write: the model's reading of "a record written" (log entry 50). -/
def State.recordBlock (s : State) (g : Gathering) : State × List AudioWork :=
  let length := s.captureLength.getD 0
  let sequence := s.au.captureSeq
  let next := { s with au.captureSeq := sequence + 1 }
  if (s.au.captureProducer - s.au.captureConsumer).toNat < length then
    let position := s.au.captureProducer.toNat % length
    let base := (s.hku.layout.map fun l => l.capture.base).getD 0
    ({ next with au.captureProducer := s.au.captureProducer + 1, au.overflow := false },
      [.captureRecord (base + 208 * position) (captureBytes sequence g) sequence position length, .captureProducer])
  else
    let dropped := { next with
      au.overflow := true
      hku.counters.droppedBlocks := s.hku.counters.droppedBlocks + 1 }
    (if s.au.overflow then dropped else dropped.post (.captureOverflow sequence), [])

/-- The capture stream at a block boundary (R154). -/
def State.settleCapture (s : State) : State × List AudioWork :=
  if s.au.capturing then
    let recorded := match s.au.gathering with
      | some g => s.recordBlock g
      | none => (s, [])
    let s := recorded.1
    (if s.au.captureStop then { s with au.capturing := false, au.captureStop := false, au.gathering := none }
      else { s with au.gathering := some ⟨s.now, []⟩ }, recorded.2)
  else (s, [])

/-! ### The block boundary (R137, R138) -/

/-- The accesses of the block that is over are late: what they read no longer finds its block (R138). -/
def State.markLate (s : State) : State :=
  { s with
    au.waiting := s.au.waiting.map fun a => { a with late := true }
    port := s.port.map fun a => match a.kind with
      | .audio w => { a with kind := .audio { w with late := true } }
      | _ => a }

/-- The block boundary: playback, cue, volume and gain, capture, in this order; then the accesses in the order of R138. -/
def State.blockBoundary (s : State) : State :=
  let stopping := s.au.playbackStop || s.au.captureStop
  let s := { s.markLate with
    au.block := ⟨0, [], [], false, s.au.block.gain⟩
    au.nextBoundary := some (s.now + Config.millisecond) }
  let play := s.settlePlayback
  let cue := play.1.settleCue
  let capture := cue.1.settleVolume.settleCapture
  let works := cue.2 ++ play.2 ++ capture.2
  { capture.1 with au.waiting := capture.1.au.waiting ++ works.map fun w => ⟨w, false, stopping⟩ }

/-- A block in gathering holds its 48 frames (R154, log entry 22). -/
def Au.gathered (a : Au) : Bool := a.gathering.all fun g => g.frames.length == Config.blockFrames

/-- BLOCK_BOUNDARY (R137). -/
def execBlockBoundary (t : Time) (s : State) : Res :=
  let s := s.granted
  s.fire t (s.au.nextBoundary = some t && s.au.gathered) State.blockBoundary

/-! ### The audio client -/

/-- AUDIO_GRANT (R19, R138, R142). -/
def execAudioGrant (t : Time) (s : State) : Res :=
  s.fire t (s.audioMayGo && !s.au.waiting.isEmpty) State.grantAudio

/-- The cue whose entry was read becomes the current cue, and its first data read goes ahead of what waits (R138, R148). A DUCK cue ducks
the frames of its first block that are sent from then on, not those sent before its entry was read: the model's choice between R148 and
R149 (log entry 57). An entry read after its block leaves DUCK as it was (log entry 21). -/
def State.startCue (s : State) (c : Cue) (late stopping : Bool) : State :=
  { s with
    au.cue := some c.advance
    au.waiting := ⟨c.nextRead, late, stopping⟩ :: s.au.waiting
    au.block.duck := if late then s.au.block.duck else c.mode == .duck }

/-- CUE_ENTRY_READ (R148). -/
def execCueEntryRead (t : Time) (s : State) : Res :=
  s.portDone t
    (fun
      | .audio ⟨.cueEntry index mode, late, stopping⟩ => some (index, mode, late, stopping)
      | _ => none)
    fun x live bytes s =>
      if live then
        let s := { s with au.startingCue := none }
        match cueOf x.1 x.2.1 bytes with
        | .inl f => s.post (.cueRefused x.1 x.2.1 f)
        | .inr c => s.startCue c x.2.2.1 x.2.2.2
      else s

/-- CAPTURE_RECORD_WRITE_DONE: the half and wrap notices (R155). -/
def execCaptureRecordWriteDone (t : Time) (s : State) : Res :=
  s.portDone t
    (fun
      | .audio ⟨.captureRecord _ _ sequence position length, _, _⟩ => some (sequence, position, length)
      | _ => none)
    fun x _ _ s =>
      let s := if x.2.1 = x.2.2 / 2 then s.post (.captureHalf x.2.1 x.1) else s
      if x.2.1 + 1 = x.2.2 then s.post (.captureWrap x.2.1 x.1) else s

/-- Data read for the block in play joins it (R138, R144, R149). -/
def Block.take (b : Block) (bytes : List Byte) : AudioWork → Block
  | .playRead _ frames => { b with main := b.main ++ framesOf frames bytes }
  | .cueData _ frames mono => { b with cue := if mono then monoFramesOf frames bytes else framesOf frames bytes }
  | .cueEntry .. | .playConsumer | .captureRecord .. | .captureProducer => b

/-- AUDIO_ACCESS_DONE: a data read joins its block unless the block is over (R138, log entry 20). -/
def execAudioAccessDone (t : Time) (s : State) : Res :=
  s.portDone t
    (fun
      | .audio ⟨.cueEntry .., _, _⟩ | .audio ⟨.captureRecord .., _, _⟩ => none
      | .audio a => some a
      | _ => none)
    fun a _ bytes s => if a.late then s else { s with au.block := s.au.block.take bytes a.work }

/-! ### The codec (R136 to R138, R150, R154) -/

/-- A frame clock tick once the part is READY: the next output frame of the block leaves, and the microphone frame joins the
block in gathering. -/
def Au.frame (a : Au) (mic : Frame) : Au :=
  { a with
    output := a.block.outputFrame a.block.sent
    block := { a.block with sent := a.block.sent + 1 }
    gathering := a.gathering.map fun g => { g with frames := g.frames ++ [mic] } }

/-- CODEC_FRAME: 48 frames to a block (R137, log entry 22); silence while BOOTING (R136). -/
def execCodecFrame (t : Time) (mic : Frame) (s : State) : Res :=
  let s := s.granted
  match s.hku.part with
  | .booting => s.fire t true fun s => { s with au.output := ⟨0, 0⟩ }
  | .ready => s.fire t (s.au.block.sent < Config.blockFrames) fun s => { s with au := s.au.frame mic }

end Sys2Proof.Machine
end

