-- ==== Sys2Proof/Machine/Boot.lean ====
section
/-! DEFINITION. Power-on and the boot load (R26 to R31): POWER_ON, BOOT_WRITE_DONE, BOOT_RECORD_READ, BOOT_LOAD_COMPLETE. -/

namespace Sys2Proof.Machine

/-- POWER_ON: every block takes its power-on state and the boot load begins. DRAM holds what it held (R26, log entry 5). -/
def execPowerOn (s : State) : Res :=
  .next { State.reset with mem := s.mem, freeIndex := s.freeIndex, pending := s.pending }

/-- One of the fifteen zeroing accesses of R26 step 4. -/
def bootZeroAccess (k : Fin 15) : Access :=
  ⟨.bootZero k, 0x100 + 256 * k.val, .write (List.replicate 256 (some 0)), true⟩

/-- The write of the boot source field and the settings-adjusted flag (R26 step 3, log entry 25). -/
def Hku.bootFieldsAccess (h : Hku) : Access :=
  let source := (h.source.map BootSource.code).getD 0
  ⟨.bootFields, 12, .write ((leBytes 1 source ++ leBytes 3 (flagCode h.adjusted)).map some), true⟩

/-- The write of the boot settings piece (R26 step 3, R31). -/
def Hku.bootSettingsAccess (h : Hku) : Access := ⟨.bootSettings, 0x40, .write (h.settings.bytes.map some), true⟩

/-- BOOT_WRITE_DONE: a boot-load write other than the last completes, and the next boot step begins (R26). -/
def execBootWriteDone (t : Time) (s : State) : Res :=
  s.portDone t
    (fun
      | .bootIdentity => some none
      | .bootFields => some (some s.hku.bootSettingsAccess)
      | .bootSettings => some (some (bootZeroAccess 0))
      | .bootZero k => if k.val < 14 then some (some (bootZeroAccess (k + 1))) else none
      | _ => none)
    fun next _ _ s =>
      match next with
      | none => { s with hku.flashDue := true }
      | some a => { s with port := some a }

/-- BOOT_RECORD_READ: the boot settings in force are derived, the blocks take their power-on values from them, and the
identification record is completed (R26 steps 2 and 3, R28 to R31). -/
def execBootRecordRead (t : Time) (flash : Option FlashRecord) (s : State) : Res :=
  let s := s.granted
  s.fire t (s.hku.flashDue && s.port.isNone) fun s =>
    let r := bootFrom flash
    let hku := { s.hku with flashDue := false, settings := r.1, source := some r.2.1, adjusted := r.2.2 }
    { s with
      hku := hku
      ssu.trims := r.1.trims
      mu.bias := r.1.bias
      pu.grant := r.1.defaultGrant
      port := some hku.bootFieldsAccess }

/-- BOOT_LOAD_COMPLETE: the last zeroing write completes; the part is READY, and the status timer, the block boundaries and the
power samples begin (R26 step 5, R137, R158, R175). -/
def execBootLoadComplete (t : Time) (s : State) : Res :=
  s.portDone t
    (fun
      | .bootZero k => if k.val = 14 then some () else none
      | _ => none)
    fun _ _ _ s =>
      { s with
        hku.part := .ready
        hku.statusTimer := some (t + Config.statusPeriod)
        au.nextBoundary := some t
        pu.nextSample := some (t + Config.millisecond) }

end Sys2Proof.Machine
end

