-- ==== Sys2Proof/Machine/Copy.lean ====
section
/-! DEFINITION. The local copy engine (chapter 7): COPY, FILL, ABORT_COPY, COPY_GRANT, COPY_READ_DONE, COPY_WRITE_DONE. -/

namespace Sys2Proof.Machine

/-! ### Taking a job (R125 to R128) -/

/-- Some destination slot is not FREE (R127). -/
def State.targetBusy (s : State) (j : Job) : Bool := (s.destSlots j).any fun k => s.fcu.slots[k].state != .free

/-- The job joins the queue, and its slots' copy-pending counts rise (R127). -/
def State.queueJob (s : State) (j : Job) : State :=
  let marks := s.destSlots j
  { s with
    fcu := marks.foldl (fun f k => f.update k fun x => { x with copyPending := x.copyPending + 1 }) s.fcu
    ce.jobs := s.ce.jobs ++ [{ j with marks := marks }]
    ce.progress := if s.ce.jobs.isEmpty then .none else s.ce.progress }

/-- The checks of a COPY or FILL, in the order of R125 to R127. -/
def State.takeJob (s : State) (r : Record) (j : Job) : State :=
  if !j.paramsOk then s.refuse r .badParam
  else if Config.jobLimit ≤ s.ce.jobs.length then s.refuse r .queueFull
  else if s.destProtected j then s.refuse r .protectedRange
  else if s.targetBusy j then s.refuse r .targetBusy
  else (s.queueJob j).finishTaking

/-- COPY (R125 to R128). -/
def execCopy (t : Time) (s : State) : Res :=
  s.takeRecord t (· == 0x0050) fun r s => s.takeJob r (copyJob r)

/-- FILL (R125 to R128). -/
def execFill (t : Time) (s : State) : Res :=
  s.takeRecord t (· == 0x0051) fun r s => s.takeJob r (fillJob r)

/-! ### The end of a job (R83, R133) -/

/-- A slot's count is lowered; a WAITING slot whose count reaches 0 becomes QUEUED (R83). -/
def Fcu.release (f : Fcu) (k : Fin 4) : Fcu :=
  let count := f.slots[k].copyPending - 1
  if f.slots[k].state = .waiting ∧ count = 0 then
    { f.update k fun x => { x with copyPending := count, state := .queued, headerDue := true } with
      queue := f.queue ++ [k] }
  else f.update k fun x => { x with copyPending := count }

/-- What a job's end does before it leaves the queue: its marks are released in ascending order, and COPY_DONE is posted
(R133). -/
def State.closeJob (s : State) (j : Job) (outcome : JobOutcome) (written : Nat) : State :=
  { s with fcu := j.marks.foldl Fcu.release s.fcu }.post (.copyDone j.kind outcome j.tag written)

/-- The running job ends, and the next one runs from its start (R133). -/
def State.endRunning (s : State) (j : Job) (outcome : JobOutcome) (written : Nat) : State :=
  { s.closeJob j outcome written with ce.jobs := s.ce.jobs.tail, ce.progress := .none }

/-- An access of the running job is in service. -/
def State.copyInService (s : State) : Bool :=
  match s.port with
  | some a => a.live && a.kind.client == .copy
  | none => false

/-- An ABORT_COPY has found its job at an index of the queue (R132). -/
def State.abortJob (s : State) (i : Nat) (j : Job) : State :=
  if i ≠ 0 then { s.closeJob j .aborted 0 with ce.jobs := s.ce.jobs.eraseIdx i }
  else if s.copyInService then { s with ce.jobs := { j with aborting := true } :: s.ce.jobs.tail }
  else s.endRunning j .aborted s.ce.progress.written

/-- ABORT_COPY (R132). -/
def execAbortCopy (t : Time) (s : State) : Res :=
  s.takeRecord t (· == 0x0052) fun r s =>
    match s.ce.jobs.zipIdx.find? fun p => p.1.tag == halfAt r.bytes 4 && !p.1.aborting with
    | some (j, i) => (s.abortJob i j).finishTaking
    | none => s.refuse r .noSuchJob

/-! ### Segments (R129, R130) -/

/-- COPY_GRANT: no access is made when the engine is paused, the job is aborting or there is none (R19, R130, R131). -/
def execCopyGrant (t : Time) (s : State) : Res :=
  s.fire t s.copyMayGo State.grantCopy

/-- COPY_READ_DONE: the segment is held, or an aborting job ends (R129, R132). -/
def execCopyReadDone (t : Time) (s : State) : Res :=
  s.portDone t
    (fun
      | .copyRead => some ()
      | _ => none)
    fun _ live bytes s =>
      match live, s.ce.jobs with
      | true, j :: _ =>
        if j.aborting then s.endRunning j .aborted s.ce.progress.written
        else { s with ce.progress.held := some bytes }
      | _, _ => s

/-- The progress after a segment has been written (R129). -/
def Job.advance (j : Job) (p : Progress) (len : Nat) : Progress :=
  if p.bytesDone + len < j.rowBytes then ⟨p.rowsDone, p.bytesDone + len, none, p.written + len⟩
  else ⟨p.rowsDone + 1, 0, none, p.written + len⟩

/-- A copy write of so many bytes has completed (R129, R132). -/
def State.copyWritten (s : State) (j : Job) (len : Nat) : State :=
  let p := j.advance s.ce.progress len
  if j.aborting then s.endRunning j .aborted p.written
  else if p.rowsDone = j.rows then s.endRunning j .complete p.written
  else { s with ce.progress := p }

/-- COPY_WRITE_DONE (R129, R132, R133). -/
def execCopyWriteDone (t : Time) (s : State) : Res :=
  s.portDone t
    (fun
      | .copyWrite => some ()
      | _ => none)
    fun _ live bytes s =>
      match live, s.ce.jobs with
      | true, j :: _ => s.copyWritten j bytes.length
      | _, _ => s

end Sys2Proof.Machine
end

