-- ==== Sys2Proof/Machine/Display.lean ====
section
/-! DEFINITION. Display states, frame boundaries, the late shift and scan-out (chapters 5 and 6): DISPLAY_START, DISPLAY_STOP,
SET_EYE_TRIM, RAMP_TIMER_EXPIRY, FRAME_BOUNDARY, CONSOLE_HALF_READ_DONE, SCAN_ROW_DUE, SCAN_ACCESS_DONE, LIT_INTERVAL_START,
LIT_INTERVAL_END. -/

namespace Sys2Proof.Machine

/-! ### Commands -/

/-- The parameters of DISPLAY_START are in range (R89). -/
def displayParamsOk (r : Record) : Bool :=
  1 ≤ r.param 4 && r.param 4 ≤ 15 && 100 ≤ r.param 8 && r.param 8 ≤ 20000

/-- The fill colour of a DISPLAY_START record (section 11.5). -/
def Record.colour (r : Record) : Rgb :=
  ⟨BitVec.ofNat 8 (fieldAt r.bytes 12 1), BitVec.ofNat 8 (fieldAt r.bytes 13 1), BitVec.ofNat 8 (fieldAt r.bytes 14 1)⟩

/-- A DISPLAY_START is taken (R89). -/
def State.startDisplay (s : State) (r : Record) : State :=
  { s with
    fcu.repeatLimit := r.param 4
    fcu.litRequest := r.param 8
    fcu.fill := r.colour
    fcu.contentLost := false
    fcu.ramp := some (s.now + Config.rampTime)
    fcu.display := .powering
    pu.rail := true }

/-- DISPLAY_START (R89). -/
def execDisplayStart (t : Time) (s : State) : Res :=
  s.takeRecord t (· == 0x0020) fun r s =>
    if !displayParamsOk r then s.refuse r .badParam
    else if s.hku.layout.isNone then s.refuse r .noLayout
    else if s.fcu.display ≠ .off then s.refuse r .busy
    else (s.startDisplay r).finishTaking

/-- DISPLAY_STOP (R91). -/
def execDisplayStop (t : Time) (s : State) : Res :=
  s.takeRecord t (· == 0x0021) fun r s =>
    match s.fcu.display with
    | .off => s.refuse r .notRunning
    | .powering =>
      ({ s with fcu.display := .off, fcu.ramp := none, pu.rail := false }.post (.displayStopped .ramp 0)).finishTaking
    | .blank | .showing => { s with fcu.stopPending := true }.finishTaking

/-- SET_EYE_TRIM (R114). -/
def execSetEyeTrim (t : Time) (s : State) : Res :=
  s.takeRecord t (· == 0x0028) fun r s =>
    if trimOk (r.signed 4) && trimOk (r.signed 8) then
      { s with ssu.requested := some ⟨r.signed 4, r.signed 8⟩ }.finishTaking
    else s.refuse r .badParam

/-! ### The SSU at a boundary (R102) -/

/-- The frame in progress ends: the pixels not sent from the slot are sent in the fill colour (R118). A row read in part keeps
the pixels read (log entry 42). -/
def PanelPort.complete (p : PanelPort) (size : Nat) (fill : Rgb) : PanelPort :=
  match p.frame with
  | some f => ⟨none, some ⟨f.pixels, size - f.pixels.length, fill⟩⟩
  | none => p

/-- A frame begins with so many pixels of the fill colour (R119, R120). -/
def PanelPort.begin (p : PanelPort) (count : Nat) (fill : Rgb) : PanelPort := { p with frame := some ⟨[], count, fill⟩ }

/-- The pixels of a frame, in the order sent (R119). -/
def PanelFrame.sent (f : PanelFrame) : List Rgb := f.pixels ++ List.replicate f.fill f.colour

/-- The pixels of a panel (R119). -/
def Settings.panelPixels (c : Settings) : Nat := c.panelWidth * c.panelHeight

/-- The scan-out of the previous frame ends, and the boundary time is recorded (R102, R118). -/
def State.endScan (s : State) : State :=
  let size := s.hku.settings.panelPixels
  let ended := s.dropAccess fun
    | .pixels _ => true
    | _ => false
  { ended with
    ssu.boundaryTime := s.now
    ssu.scan := none
    ssu.rowsDue := 0
    ssu.litInterval := false
    ssu.left := s.ssu.left.complete size s.fcu.fill
    ssu.right := s.ssu.right.complete size s.fcu.fill }

/-- The console-half read of a slot that is no longer to be shown is dropped. -/
def State.dropChosen (s : State) : State :=
  { s.dropAccess (fun
      | .consoleHalf _ => true
      | _ => false) with
    ssu.chosen := none }

/-- A frame begins: the requested trims apply, the lit duration is computed, and each panel port starts a frame with so many pixels
of the fill colour (R102, R103, R115, R119). -/
def State.beginFrame (s : State) (count : Nat) : State :=
  { s with
    ssu.trims := s.ssu.requested.getD s.ssu.trims
    ssu.requested := none
    ssu.lit := litDuration s.hku.settings s.fcu.litRequest s.caps.lit
    ssu.left := s.ssu.left.begin count s.fcu.fill
    ssu.right := s.ssu.right.begin count s.fcu.fill }

/-- The rotation shifts of a showing; none when it is stale (R106 to R111). -/
def State.rotation (s : State) (h : ConsoleHalf) : Option (Int × Int) :=
  let c := s.hku.settings
  if h.poseSequence = 0 ∨ h.noShift = true then some (0, 0)
  else
    match s.mu.pub.lookup h.poseSequence, (s.mu.predict (targetTime s.ssu.boundaryTime c s.ssu.lit)).angles with
    | some r, some p =>
      some (rotationShift (angleDiff p.yaw r.angles.yaw) c.kx, rotationShift (angleDiff p.pitch r.angles.pitch) c.ky)
    | _, _ => none

/-- The shift results of a showing (R106, R112). -/
def State.results (s : State) (h : ConsoleHalf) : ShiftResults :=
  match s.rotation h with
  | some (sx, sy) => shiftResults s.hku.settings s.ssu.trims sx sy false (h.poseSequence == 0)
  | none => shiftResults s.hku.settings s.ssu.trims 0 0 true false

/-- The stale episode: a stale showing outside one posts POSE_STALE, any other ends it (R108). -/
def State.noteStale (s : State) (k : Fin 4) (h : ConsoleHalf) (stale : Bool) : State :=
  let noted := if stale && !s.ssu.stale then
      s.postAt s.ssu.boundaryTime (.poseStale k s.fcu.slots[k].submitValue h.poseSequence)
    else s
  { noted with ssu.stale := stale }

/-- The slot record with the results of a showing; REPEATED is kept (R86, R113). -/
def Slot.withResults (x : Slot) (r : ShiftResults) : Slot :=
  { x with
    flags := ⟨r.clampedX, r.clampedY, r.poseStale, x.flags.repeated, r.noPose⟩
    shift := r.shift
    headerDue := true }

/-- The scan-out of a shown slot begins (R116, R117). -/
def Scan.start (c : Settings) (base : Nat) (k : Fin 4) (x : Shift) : Scan where
  slot := k
  base := base
  columnLeft := (c.guardX + x.left).toNat
  columnRight := (c.guardX + x.right).toNat
  originRow := (c.guardY + x.vertical).toNat
  row := 0
  eye := .left
  done := 0

/-- A slot is shown: the shift is computed and handed over, and the scan-out of the window begins (R102 to R117, R175). -/
def State.showSlot (s : State) (k : Fin 4) (h : ConsoleHalf) : State :=
  let r := s.results h
  let s := (s.noteStale k h r.poseStale).updateSlot k (·.withResults r)
  { s with
    ssu.results := r
    ssu.output := .image k
    ssu.chosen := none
    ssu.scan := some (Scan.start s.hku.settings (s.slotHeader k) k r.shift)
    hku.statusDue := true }

/-! ### The frame boundary (R93 to R97) -/

/-- A slot becomes FREE with an outcome; counts, times and shifts are kept (R86, R93). -/
def Slot.freed (x : Slot) (o : SlotOutcome) : Slot :=
  { x with state := .free, outcome := o, half := none, headerDue := true }

/-- A slot at a stop boundary (R93). -/
def Slot.stopped (x : Slot) : Slot :=
  match x.state with
  | .showing => x.freed .shown
  | .queued | .waiting => x.freed .flushed
  | .free => x

/-- A slot that a stop boundary flushes. -/
def Slot.flushes (x : Slot) : Bool := x.state == .queued || x.state == .waiting

/-- A boundary with stop_pending set (R93, R102, R175). The panel ports complete the ending frame in the fill colour here too, with the
output DARK from this moment: the model's choice between R118 and R121 (log entry 54). -/
def State.stopBoundary (s : State) : State :=
  let flushed := allSlots.countP fun k => s.fcu.slots[k].flushes
  let s := s.endScan.dropChosen
  { s with
    fcu := { s.fcu with
      slots := s.fcu.slots.map Slot.stopped
      queue := []
      display := .off
      stopPending := false
      contentLost := false
      boundary := none }
    ssu := { s.ssu with lit := 0, output := .dark, stale := false }
    pu.rail := false
    hku.statusDue := true
    hku.statusTimer := some (s.now + Config.statusPeriod) }.post (.displayStopped .boundary flushed)

/-- An older QUEUED slot is skipped (R94). -/
def State.skipSlot (s : State) (k : Fin 4) : State :=
  { s.updateSlot k (·.freed .skipped) with
    hku.counters.skipped := s.hku.counters.skipped + 1 }.post (.frameSkipped k s.fcu.slots[k].submitValue)

/-- The slot record of a chosen slot (R85, R94). -/
def Slot.chosen (x : Slot) (time : Time) : Slot :=
  { x with state := .showing, shown := 1, firstShown := time, half := none, headerDue := true }

/-- The previous SHOWING slot becomes FREE with outcome SHOWN (R94). -/
def State.releaseShowing (s : State) : State :=
  match s.fcu.showingSlot with
  | some k => s.updateSlot k (·.freed .shown)
  | none => s

/-- A choice after a content loss ends the episode (R94). -/
def State.resumeContent (s : State) (k : Fin 4) : State :=
  if s.fcu.contentLost then
    { s with fcu.contentLost := false }.post (.contentResumed k s.fcu.slots[k].submitValue)
  else s

/-- The newest QUEUED slot is chosen (R94, R97, R102); its console half is to be read. -/
def State.chooseBoundary (s : State) (older : List (Fin 4)) (k : Fin 4) : State :=
  let s := (older.foldl State.skipSlot s).releaseShowing
  let s := { s.updateSlot k (·.chosen s.now) with
    fcu.queue := []
    fcu.display := .showing
    hku.counters.framesShown := s.hku.counters.framesShown + 1 }.resumeContent k
  { s.endScan.dropChosen.beginFrame 0 with ssu.chosen := some k, ssu.rowsDue := 1 }

/-- The SHOWING slot is shown again (R95, R97, R122). While its console half is still unread, the showing waits for it (log
entry 18). -/
def State.repeatBoundary (s : State) (k : Fin 4) : State :=
  let s := s.updateSlot k fun x => { x with shown := x.shown + 1, flags.repeated := true, headerDue := true }
  let s := { s with
    hku.counters.repeated := s.hku.counters.repeated + 1
    hku.counters.framesShown := s.hku.counters.framesShown + 1 }
  let s := { s.endScan.beginFrame 0 with ssu.rowsDue := 1 }
  match s.fcu.slots[k].half with
  | some h => s.showSlot k h
  | none => s

/-- A boundary that leaves the display BLANK: both panels receive every pixel in the fill colour (R96, R120, R175). -/
def State.blankBoundary (s : State) : State :=
  { s.endScan.dropChosen.beginFrame s.hku.settings.panelPixels with ssu.output := .fill, hku.statusDue := true }

/-- The content is lost (R96). -/
def State.loseContent (s : State) (k : Fin 4) : State :=
  { s.updateSlot k (·.freed .shown) with
    fcu.display := .blank
    fcu.contentLost := true
    hku.counters.contentLost := s.hku.counters.contentLost + 1 }.post (.contentLost k s.fcu.slots[k].shown)

/-- The frame boundary: the cases of section 5.4, in their order. The next one is a frame period later (R90). -/
def State.boundary (s : State) : State :=
  if s.fcu.stopPending then s.stopBoundary
  else
    let s := { s with fcu.boundary := some (s.now + BitVec.ofNat 32 s.hku.settings.framePeriod) }
    match s.fcu.queue.getLast?, s.fcu.showingSlot with
    | some k, _ => s.chooseBoundary s.fcu.queue.dropLast k
    | none, some k =>
      if s.fcu.slots[k].shown ≤ s.fcu.repeatLimit then s.repeatBoundary k else (s.loseContent k).blankBoundary
    | none, none => s.blankBoundary

/-- RAMP_TIMER_EXPIRY: the display becomes BLANK with the panels at the fill colour, the status timer stops, and the expiry is the
first frame boundary (R90, R175). -/
def execRampTimerExpiry (t : Time) (s : State) : Res :=
  let s := s.granted
  s.fire t (s.fcu.display = .powering && s.fcu.ramp = some t) fun s =>
    { s with fcu.display := .blank, fcu.ramp := none, ssu.output := .fill, hku.statusTimer := none }.boundary

/-- FRAME_BOUNDARY (R90, R93 to R97). -/
def execFrameBoundary (t : Time) (s : State) : Res :=
  let s := s.granted
  s.fire t ((s.fcu.display = .blank || s.fcu.display = .showing) && s.fcu.boundary = some t) State.boundary

/-! ### Scan-out (R85, R117, R118) -/

/-- CONSOLE_HALF_READ_DONE: the slot holds its console-half values, and is shown (R85, R102). -/
def execConsoleHalfReadDone (t : Time) (s : State) : Res :=
  s.portDone t
    (fun
      | .consoleHalf k => some k
      | _ => none)
    fun k live bytes s =>
      if live then (s.updateSlot k fun x => { x with half := some (consoleHalfOf bytes) }).showSlot k (consoleHalfOf bytes)
      else s

/-- A frame's scan-out is under way or waits for its shift. -/
def Ssu.scanning (u : Ssu) : Bool := u.chosen.isSome || u.scan.isSome

/-- SCAN_ROW_DUE: the read time of the next panel row arrives (R117). -/
def execScanRowDue (t : Time) (s : State) : Res :=
  let s := s.granted
  let c := s.hku.settings
  s.fire t (s.ssu.scanning && s.ssu.rowsDue < c.panelHeight && t == rowTime s.ssu.boundaryTime c s.ssu.rowsDue) fun s =>
    { s with ssu.rowsDue := s.ssu.rowsDue + 1 }

/-- The scan-out after a read of some bytes; none after the last row (R117, R118). -/
def Scan.advance (n : Scan) (c : Settings) (len : Nat) : Option Scan :=
  if n.done + len < c.rowBytes then some { n with done := n.done + len }
  else
    match n.eye with
    | .left => some { n with eye := .right, done := 0 }
    | .right => if n.row + 1 < c.panelHeight then some { n with row := n.row + 1, eye := .left, done := 0 } else none

/-- Pixels go to a panel port in column order (R117, R119). -/
def PanelPort.send (p : PanelPort) (px : List Rgb) : PanelPort :=
  { p with frame := p.frame.map fun f => { f with pixels := f.pixels ++ px } }

/-- SCAN_ACCESS_DONE: the pixels go to the panel port of their eye, and the scan-out advances (R117). -/
def execScanAccessDone (t : Time) (s : State) : Res :=
  s.portDone t
    (fun
      | .pixels eye => some eye
      | _ => none)
    fun eye live bytes s =>
      if live then
        let u := { s.ssu with scan := s.ssu.scan.bind fun n => n.advance s.hku.settings bytes.length }
        { s with
          ssu := match eye with
            | .left => { u with left := u.left.send (pixelsOf bytes) }
            | .right => { u with right := u.right.send (pixelsOf bytes) } }
      else s

/-! ### Illumination (R104) -/

/-- LIT_INTERVAL_START: at the boundary time plus lit_offset, with a lit duration in force (R104, log entry 32). -/
def execLitIntervalStart (t : Time) (s : State) : Res :=
  let s := s.granted
  let start := s.ssu.boundaryTime + BitVec.ofNat 32 s.hku.settings.litOffset
  s.fire t (0 < s.ssu.lit && !s.ssu.litInterval && t == start) fun s => { s with ssu.litInterval := true }

/-- LIT_INTERVAL_END: the lit duration has elapsed (R104). -/
def execLitIntervalEnd (t : Time) (s : State) : Res :=
  let s := s.granted
  let stop := s.ssu.boundaryTime + BitVec.ofNat 32 (s.hku.settings.litOffset + s.ssu.lit)
  s.fire t (s.ssu.litInterval && t == stop) fun s => { s with ssu.litInterval := false }

/-- The panels are illuminated: in the lit interval, unless the output is DARK (R104). -/
def Ssu.illuminated (u : Ssu) : Bool := u.litInterval && u.output != .dark

end Sys2Proof.Machine
end

