-- ==== Sys2Proof/Machine/Power.lean ====
section
/-! DEFINITION. The power budget (chapter 9): POWER_GRANT, POWER_CEILING, POWER_SAMPLE. -/

namespace Sys2Proof.Machine

/-- POWER_GRANT: the grant, clamped, waits for the next window end (R164). -/
def execPowerGrant (t : Time) (s : State) : Res :=
  s.takeRecord t (· == 0x0060) fun r s =>
    { s with pu.requested := some (min 20000 (max 500 (r.param 4))) }.finishTaking

/-- A new ceiling; a level above it falls to it at once (R165). -/
def State.takeCeiling (s : State) (ceiling : Fin 8) : State :=
  let before := s.pu.level
  let s := { s with pu.ceiling := ceiling }
  if ceiling < before then
    ({ s with pu.overCount := 0, pu.underCount := 0 }.setLevel ceiling).post
      (.powerLevelChanged before ceiling .ceiling s.pu.lastAverage)
  else s

/-- POWER_CEILING (R165). -/
def execPowerCeiling (t : Time) (s : State) : Res :=
  s.takeRecord t (· == 0x0061) fun r s =>
    if r.param 4 < 8 then (s.takeCeiling (Fin.ofNat 8 (r.param 4))).finishTaking else s.refuse r .badParam

/-- The undervoltage test and the decrement of the hold (R159, R160). -/
def State.testVoltage (s : State) (milliVolts milliAmps : Nat) : State :=
  if milliVolts < s.hku.settings.undervoltage then
    let noticed := if s.pu.hold < 64 then s.post (.undervoltage s.pu.level milliVolts milliAmps) else s
    { noticed with pu.overCount := 0, pu.underCount := 0, pu.hold := 64 }.setLevel 0
  else { s with pu.hold := s.pu.hold - 1 }

/-- A step of the level with its notice; both counts return to 0 (R162, R163). -/
def State.stepLevel (s : State) (level : Fin 8) (cause : LevelCause) : State :=
  ({ s with pu.overCount := 0, pu.underCount := 0 }.setLevel level).post
    (.powerLevelChanged s.pu.level level cause s.pu.lastAverage)

/-- An over window (R161, R162). -/
def State.overWindow (s : State) : State :=
  if s.pu.overCount + 1 < 2 then { s with pu.overCount := s.pu.overCount + 1, pu.underCount := 0 }
  else if s.pu.level = 0 then { s with pu.overCount := 0, pu.underCount := 0 }
  else s.stepLevel (s.pu.level - 1) .over

/-- An under window (R161, R163). -/
def State.underWindow (s : State) : State :=
  let count := min 8 (s.pu.underCount + 1)
  if count = 8 ∧ s.pu.level < s.pu.ceiling ∧ s.pu.hold = 0 then s.stepLevel (s.pu.level + 1) .under
  else { s with pu.overCount := 0, pu.underCount := count }

/-- The end of a window: the requested grant applies, the average is classified, and the level may step (R161 to R163). -/
def State.endWindow (s : State) : State :=
  let average := s.pu.accumulator / 16
  let s := { s with
    pu.grant := s.pu.requested.getD s.pu.grant
    pu.requested := none
    pu.lastAverage := average
    pu.accumulator := 0
    pu.sampleCount := 0 }
  if s.pu.grant < average then s.overWindow
  else if average ≤ underLimit s.pu.grant then s.underWindow
  else { s with pu.overCount := 0, pu.underCount := 0 }

/-- The steps of a power sample, in their order (R158). -/
def State.takeSample (s : State) (r : MonitorReading) : State :=
  let s := s.testVoltage (min r.milliVolts 24000) (min r.milliAmps 8000)
  let s := { s with
    pu.accumulator := s.pu.accumulator + samplePower r
    pu.sampleCount := s.pu.sampleCount + 1 }
  if s.pu.sampleCount = 16 then s.endWindow else s

/-- POWER_SAMPLE: a sample time, every 1,000 microseconds; one without a reading is skipped (R158). -/
def execPowerSample (t : Time) (reading : Option MonitorReading) (s : State) : Res :=
  let s := s.granted
  s.fire t (s.pu.nextSample = some t) fun s =>
    let s := { s with pu.nextSample := some (t + Config.millisecond) }
    match reading with
    | none => s
    | some r => s.takeSample r

end Sys2Proof.Machine
end

