-- ==== Sys2Proof/Machine/Motion.lean ====
section
/-! DEFINITION. Motion sensing (chapter 3) and the forming of pose records (R65, R66): MOTION_START, MOTION_STOP, SET_GYRO_BIAS,
DATA_READY, SENSOR_READ_DONE, SENSOR_EXCHANGE_DONE, STALL_TIMER_EXPIRY. -/

namespace Sys2Proof.Machine

/-! ### Commands (R58 to R61) -/

/-- Publication as a MOTION_START leaves it (R59, R65, R70, R76). -/
def Publication.started (p : Publication) : Publication :=
  { p with
    nextSeq := some 1
    history := []
    pending := none
    exchange := { p.exchange with resetDue := true, indicatorDue := false }
    ringRestartDue := true }

/-- The MU as a MOTION_START leaves it (R59), with the sensor rate cap of the level in force (R50). -/
def Mu.started (m : Mu) (now : Time) (decimation : Nat) (commanded cap : Rate) : Mu :=
  { m with
    motion := .running
    angles := ⟨0, 0, 0⟩
    remainders := ⟨0, 0, 0⟩
    rates := ⟨0, 0, 0⟩
    accel := ⟨0, 0, 0⟩
    lastTime := now
    commanded := commanded
    inUse := commanded.lower cap
    former := commanded.lower cap
    rateChanged := false
    decimation := decimation
    samples := 0
    first := true
    gathered := ⟨false, false, false⟩
    stall := some now
    pub := m.pub.started }.beginConfig

/-- MOTION_START (R58, R59). -/
def execMotionStart (t : Time) (s : State) : Res :=
  s.takeRecord t (· == 0x0030) fun r s =>
    match 1 ≤ r.param 4 && r.param 4 ≤ 8, rateOf (r.param 8) with
    | true, some rate =>
      if s.hku.layout.isNone then s.refuse r .noLayout
      else if s.mu.motion ≠ .off then s.refuse r .busy
      else { s with mu := s.mu.started s.now (r.param 4) rate s.caps.rate }.finishTaking
    | _, _ => s.refuse r .badParam

/-- Publication as a MOTION_STOP leaves it (R60, R77): the exchange is frozen. -/
def Publication.stopped (p : Publication) : Publication :=
  { p with
    list := []
    headGranted := false
    headWritten := false
    history := []
    pending := none
    exchange := { p.exchange with resetDue := false, indicatorDue := false }
    ringRestartDue := false }

/-- The MU as a MOTION_STOP leaves it (R60). R60 says nothing of the last accelerations, sample count, first-sample flag and rate-change
mark; they are kept: the model's choice (log entry 56). -/
def Mu.stopped (m : Mu) : Mu :=
  { m with motion := .off, stall := none, gathered := ⟨false, false, false⟩, pub := m.pub.stopped }.beginStop

/-- MOTION_STOP: a motion access in service completes and does no more (R60, R77). -/
def execMotionStop (t : Time) (s : State) : Res :=
  s.takeRecord t (· == 0x0031) fun r s =>
    if s.mu.motion = .off then s.refuse r .notRunning
    else ({ s with mu := s.mu.stopped }.dropAccess fun k => k.client == Client.motion).finishTaking

/-- SET_GYRO_BIAS: every value is taken, in every motion state (R61). -/
def execSetGyroBias (t : Time) (s : State) : Res :=
  s.takeRecord t (· == 0x0032) fun r s =>
    { s with mu.bias := ⟨halfAt r.bytes 4, halfAt r.bytes 6, halfAt r.bytes 8⟩ }.finishTaking

/-! ### Samples (R49 to R55) -/

/-- DATA_READY: stamped, the stall timer starts again, and the sample is read or becomes pending; ignored in OFF (R49). -/
def execDataReady (t : Time) (s : State) : Res :=
  let s := s.granted
  s.fire t (s.mu.motion ≠ .off) fun s => { s with mu := { s.mu with stall := some t }.pendReady t }

/-- The sample interval of a sample and its GAP flag (R53). -/
def Mu.interval (m : Mu) (time : Time) : Nat × Bool :=
  let d := signedDiff time m.lastTime
  let period := if m.rateChanged then max m.inUse.period m.former.period else m.inUse.period
  if m.first then (m.inUse.period, false) else ((clamp 1 10000 d).toNat, decide ((2 * period : Int) < d))

/-- One axis: new angle and remainder (R54). -/
def accumulate (angle : Word) (r : Int) (dt remainder : Nat) : Word × Nat :=
  (moveAngle angle (increment r dt remainder), remainderAfter r dt remainder)

/-- The bias-corrected rates of a reading (R51, R52). -/
def Mu.correctedRates (m : Mu) (map : Axes AxisSource) (gyro : Xyz Half) : Axes Int :=
  ⟨map.yaw.corrected gyro m.bias.yaw, map.pitch.corrected gyro m.bias.pitch, map.roll.corrected gyro m.bias.roll⟩

/-- The SATURATED flag of a reading (R52). -/
def Mu.saturated (m : Mu) (map : Axes AxisSource) (gyro : Xyz Half) : Bool :=
  map.yaw.saturates gyro m.bias.yaw || map.pitch.saturates gyro m.bias.pitch || map.roll.saturates gyro m.bias.roll

/-- A sample is integrated and completed: R51 to R55, but for its notice and its publication. -/
def Mu.integrate (m : Mu) (map : Axes AxisSource) (reading : SensorReading) (time : Time) : Mu :=
  let r := m.correctedRates map reading.gyro
  let dt := (m.interval time).1
  let yaw := accumulate m.angles.yaw r.yaw dt m.remainders.yaw
  let pitch := accumulate m.angles.pitch r.pitch dt m.remainders.pitch
  let roll := accumulate m.angles.roll r.roll dt m.remainders.roll
  { m with
    motion := .running
    angles := ⟨yaw.1, pitch.1, roll.1⟩
    remainders := ⟨yaw.2, pitch.2, roll.2⟩
    rates := ⟨BitVec.ofInt 16 r.yaw, BitVec.ofInt 16 r.pitch, BitVec.ofInt 16 r.roll⟩
    accel := reading.accel
    lastTime := time
    samples := m.samples + 1
    first := false
    gathered :=
      { gap := m.gathered.gap || (m.interval time).2
        saturated := m.gathered.saturated || m.saturated map reading.gyro
        afterStall := m.gathered.afterStall || m.motion == .stalled } }

/-- The pose record of the MU as it stands (R65, R179). -/
def Mu.poseRecord (m : Mu) (sequence : Word) : PoseRecord where
  sequence := sequence
  time := m.lastTime
  angles := m.angles
  rates := m.rates
  accel := ⟨withFlag m.accel.x m.gathered.gap, withFlag m.accel.y m.gathered.saturated, withFlag m.accel.z m.gathered.afterStall⟩

/-- A record joins the publication list; a full list loses its oldest record whose writes are not under way (R66). -/
def Publication.append (p : Publication) (r : PoseRecord) : Publication :=
  let kept := if p.list.length < Config.publicationLimit then p.list
    else p.list.eraseIdx (if p.headGranted then 1 else 0)
  { p with list := kept ++ [r] }

/-- The sequence after one; none after the last of a run (R65). -/
def nextSequence (q : Word) : Option Word := if q = 0xFFFFFFFF then none else some (q + 1)

/-- At a multiple of the decimation a record is published and the gathered flags are cleared (R65). -/
def Mu.publish (m : Mu) : Mu :=
  if m.samples % m.decimation = 0 then
    { m with
      gathered := ⟨false, false, false⟩
      pub := match m.pub.nextSeq with
        | some q => { m.pub.append (m.poseRecord q) with nextSeq := nextSequence q }
        | none => m.pub }
  else m

/-- The rate in use is compared with the commanded rate and the cap (R50). -/
def Mu.reviewRate (m : Mu) (cap : Rate) : Mu :=
  let r := m.commanded.lower cap
  if r ≠ m.inUse then { m with former := m.inUse, inUse := r, rateChanged := true }.beginRate r
  else { m with rateChanged := false }

/-- A wanted sample: integrated, published, the rate reviewed; in STALLED it posts SENSOR_RESUMED (R55, R57). -/
def State.takeReading (s : State) (reading : SensorReading) (time : Time) : State :=
  let noted := if s.mu.motion = .stalled then s.post (.sensorResumed time) else s
  { noted with mu := ((s.mu.integrate s.hku.settings.axisMap reading time).publish).reviewRate s.caps.rate }

/-- SENSOR_READ_DONE: the port frees; the sample is taken, or discarded when a stop came meanwhile; the next exchange begins
(R48 to R57, R60). -/
def execSensorReadDone (t : Time) (reading : SensorReading) (s : State) : Res :=
  let s := s.granted
  match s.mu.sensor.busy with
  | some (.read time wanted) =>
    s.fire t true fun s =>
      let s := { s with mu.sensor.busy := none }
      let s := if wanted then s.takeReading reading time else s
      { s with mu := s.mu.nextExchange }
  | some (.config _) | some (.rate _) | some .stop | none => .next s

/-- What an exchange other than a read has set in the sensor (R48). -/
def Exchange.sets : Exchange → Option SensorSetting
  | .config r | .rate r => some (.measuring r)
  | .stop => some .idle
  | .read _ _ => none

/-- SENSOR_EXCHANGE_DONE: a configuration, rate or stop exchange completes, and the next one begins (R48, R49). -/
def execSensorExchangeDone (t : Time) (s : State) : Res :=
  let s := s.granted
  match s.mu.sensor.busy.bind Exchange.sets with
  | some setting =>
    s.fire t true fun s =>
      { s with mu := { s.mu with sensor.busy := none, sensor.setting := setting }.nextExchange }
  | none => .next s

/-- STALL_TIMER_EXPIRY: 20,000 microseconds after the last start, in RUNNING (R56). -/
def execStallTimerExpiry (t : Time) (s : State) : Res :=
  let s := s.granted
  match s.mu.stall with
  | some start =>
    s.fire t (s.mu.motion = .running && t == start + Config.stallTime) fun s =>
      { s with mu.motion := .stalled, mu.stall := none }.post (.sensorStall start)
  | none => .next s

end Sys2Proof.Machine
end

