-- ==== Sys2Proof/Machine/Publish.lean ====
section
/-! DEFINITION. The motion client (chapter 4): MOTION_GRANT, POSE_RING_WRITTEN, EXCHANGE_RECORD_WRITE_DONE,
MOTION_ACCESS_DONE. -/

namespace Sys2Proof.Machine

/-- MOTION_GRANT (R19, R67). -/
def execMotionGrant (t : Time) (s : State) : Res :=
  match s.mu.pub.due with
  | some w => s.fire t s.motionMayGo (·.grantMotion w)
  | none => .next s

/-- A record enters the history, which keeps the newest 64 (R70). -/
def enterHistory (history : List PoseRecord) (r : PoseRecord) : List PoseRecord :=
  (if history.length < Config.historyLimit then history else history.tail) ++ [r]

/-- The head of the list has been written to the pose ring (R68). -/
def Publication.written (p : Publication) (r : PoseRecord) : Publication :=
  { p with
    list := p.list.tail
    headGranted := false
    headWritten := false
    history := enterHistory p.history r
    pending := some r }

/-- The half and wrap notices of a ring position (R69). -/
def State.noteRing (s : State) (length : Nat) (r : PoseRecord) : State :=
  let position := ringPosition r.sequence length
  let s := if position = length / 2 then s.post (.poseRingHalf position r.sequence) else s
  if position + 1 = length then s.post (.poseRingWrap position r.sequence) else s

/-- POSE_RING_WRITTEN: the control word write completes (R68 to R70). -/
def execPoseRingWritten (t : Time) (s : State) : Res :=
  s.portDone t
    (fun
      | .ringControl r => some r
      | _ => none)
    fun r live _ s =>
      if live then { s.noteRing s.poseLength r with mu.pub := s.mu.pub.written r } else s

/-- A record has been written into the back (R73): the exchange flips, or the flip is missed. -/
def PoseExchange.recordWritten (x : PoseExchange) (sequence : Word) (into : Ex) : PoseExchange :=
  if x.hold then { x with backSeq := sequence, missed := true, indicatorDue := x.indicatorDue || !x.missed }
  else { x with front := into, frontSeq := sequence, backSeq := x.frontSeq, missed := false, indicatorDue := true }

/-- EXCHANGE_RECORD_WRITE_DONE (R73). -/
def execExchangeRecordWriteDone (t : Time) (s : State) : Res :=
  s.portDone t
    (fun
      | .exchangeRecord r into => some (r, into)
      | _ => none)
    fun w live _ s =>
      if live then { s with mu.pub.exchange := s.mu.pub.exchange.recordWritten w.1.sequence w.2 } else s

/-- MOTION_ACCESS_DONE: another motion write completes; after the record write, the control word write is next (R68). -/
def execMotionAccessDone (t : Time) (s : State) : Res :=
  s.portDone t
    (fun
      | .exchangeReset | .ringRestart | .indicator => some false
      | .ringRecord => some true
      | _ => none)
    fun record live _ s => if record && live then { s with mu.pub.headWritten := true } else s

end Sys2Proof.Machine
end

