-- ==== Sys2Proof/Machine/Report.lean ====
section
/-! DEFINITION. What the HKU reports (chapter 10) and the grants of the housekeeping client: SET_ATTENTION_MASK,
HOUSEKEEPING_GRANT, NOTICE_ENTRY_WRITE_DONE, NOTICE_PRODUCER_WRITE_DONE, STATUS_TIMER_EXPIRY, STATUS_BLOCK_WRITE_DONE. -/

namespace Sys2Proof.Machine

/-- SET_ATTENTION_MASK: every value is accepted (R174). -/
def execSetAttentionMask (t : Time) (s : State) : Res :=
  s.takeRecord t (· == 0x0070) fun r s => { s with hku.attentionMask := wordAt r.bytes 4 }.finishTaking

/-! ### The housekeeping client (R172) -/

/-- HOUSEKEEPING_GRANT (R19, R172). The read of a command record is whole within its grant (log entry 11). -/
def execHousekeepingGrant (t : Time) (s : State) : Res :=
  match s.housekeepingDue with
  | some w => s.fire t s.housekeepingMayGo (·.grantHousekeeping w)
  | none => .next s

/-! ### Notices (R170, R173) -/

/-- NOTICE_ENTRY_WRITE_DONE: the notice leaves the list and is written, not yet shown (R170). -/
def execNoticeEntryWriteDone (t : Time) (s : State) : Res :=
  s.portDone t
    (fun
      | .noticeEntry => some ()
      | _ => none)
    fun _ live _ s =>
      match live, s.hku.writeList with
      | true, p :: rest =>
        { s with
          hku.writeList := rest
          hku.noticeWritten := s.hku.noticeWritten + 1
          hku.unshown := s.hku.unshown ++ [(p.position, p.notice.code)] }
      | _, _ => s

/-- An ATTENTION is requested for a newly shown notice whose kind the mask selects (R173). -/
def Tiu.announce (u : Tiu) (mask : Word) (shown : Nat × Nat) : Tiu :=
  if mask.getLsbD shown.2 then u.attend shown.1 shown.2 else u

/-- The producer word in memory shows the notices up to a count (R170, R173). -/
def State.showNotices (s : State) (written : Word) : State :=
  let n := (written - s.hku.noticeShown).toNat
  { s with
    tiu := (s.hku.unshown.take n).foldl (fun u p => u.announce s.hku.attentionMask p) s.tiu
    hku.noticeShown := written
    hku.unshown := s.hku.unshown.drop n }

/-- NOTICE_PRODUCER_WRITE_DONE (R170, R173). -/
def execNoticeProducerWriteDone (t : Time) (s : State) : Res :=
  s.portDone t
    (fun
      | .noticeProducer written => some written
      | _ => none)
    fun written live _ s => if live then s.showNotices written else s

/-! ### The status block (R175, R176) -/

/-- STATUS_TIMER_EXPIRY: a status block write is due, and the timer starts again (R175). -/
def execStatusTimerExpiry (t : Time) (s : State) : Res :=
  let s := s.granted
  s.fire t (s.hku.statusTimer = some t) fun s =>
    { s with hku.statusDue := true, hku.statusTimer := some (t + Config.statusPeriod) }

/-- STATUS_BLOCK_WRITE_DONE: one half of the block is in memory (R176). -/
def execStatusBlockWriteDone (t : Time) (s : State) : Res :=
  s.portDone t
    (fun
      | .statusFirst | .statusSecond => some ()
      | _ => none)
    fun _ _ _ s => s

end Sys2Proof.Machine
end

