-- ==== Sys2Proof/Machine/Dispatch.lean ====
section
/-! DEFINITION. The meaning of every step: one arm per constructor. -/

namespace Sys2Proof.Machine

def exec (i : Instr) (s : State) : Host.Outcome State Fault Refusal :=
  match i with
  | .powerOn => Sys2Proof.Machine.execPowerOn s
  | .bootRecordRead t flash => Sys2Proof.Machine.execBootRecordRead t flash s
  | .bootLoadComplete t => Sys2Proof.Machine.execBootLoadComplete t s
  | .linkUp t => Sys2Proof.Machine.execLinkUp t s
  | .linkDown t => Sys2Proof.Machine.execLinkDown t s
  | .badMessage t => Sys2Proof.Machine.execBadMessage t s
  | .write t addr len data => Sys2Proof.Machine.execWrite t addr len data s
  | .read t addr len tag => Sys2Proof.Machine.execRead t addr len tag s
  | .timeMark t markId consoleTime => Sys2Proof.Machine.execTimeMark t markId consoleTime s
  | .requestTake t => Sys2Proof.Machine.execRequestTake t s
  | .inboundWriteDone t => Sys2Proof.Machine.execInboundWriteDone t s
  | .inboundReadDone t => Sys2Proof.Machine.execInboundReadDone t s
  | .upstreamMessageSent t => Sys2Proof.Machine.execUpstreamMessageSent t s
  | .commandProducer t => Sys2Proof.Machine.execCommandProducer t s
  | .noticeConsumer t => Sys2Proof.Machine.execNoticeConsumer t s
  | .poseHold t => Sys2Proof.Machine.execPoseHold t s
  | .playbackProducer t => Sys2Proof.Machine.execPlaybackProducer t s
  | .captureConsumer t => Sys2Proof.Machine.execCaptureConsumer t s
  | .cueRequest t => Sys2Proof.Machine.execCueRequest t s
  | .submitWord t => Sys2Proof.Machine.execSubmitWord t s
  | .commandConsumerWriteDone t => Sys2Proof.Machine.execCommandConsumerWriteDone t s
  | .unknownCommand t => Sys2Proof.Machine.execUnknownCommand t s
  | .applyLayout t => Sys2Proof.Machine.execApplyLayout t s
  | .layoutTableRead t => Sys2Proof.Machine.execLayoutTableRead t s
  | .restart t => Sys2Proof.Machine.execRestart t s
  | .displayStart t => Sys2Proof.Machine.execDisplayStart t s
  | .displayStop t => Sys2Proof.Machine.execDisplayStop t s
  | .setEyeTrim t => Sys2Proof.Machine.execSetEyeTrim t s
  | .motionStart t => Sys2Proof.Machine.execMotionStart t s
  | .motionStop t => Sys2Proof.Machine.execMotionStop t s
  | .setGyroBias t => Sys2Proof.Machine.execSetGyroBias t s
  | .playbackStart t => Sys2Proof.Machine.execPlaybackStart t s
  | .playbackStop t => Sys2Proof.Machine.execPlaybackStop t s
  | .setVolume t => Sys2Proof.Machine.execSetVolume t s
  | .captureStart t => Sys2Proof.Machine.execCaptureStart t s
  | .captureStop t => Sys2Proof.Machine.execCaptureStop t s
  | .copy t => Sys2Proof.Machine.execCopy t s
  | .fill t => Sys2Proof.Machine.execFill t s
  | .abortCopy t => Sys2Proof.Machine.execAbortCopy t s
  | .powerGrant t => Sys2Proof.Machine.execPowerGrant t s
  | .powerCeiling t => Sys2Proof.Machine.execPowerCeiling t s
  | .setAttentionMask t => Sys2Proof.Machine.execSetAttentionMask t s
  | .dataReady t => Sys2Proof.Machine.execDataReady t s
  | .sensorReadDone t reading => Sys2Proof.Machine.execSensorReadDone t reading s
  | .sensorExchangeDone t => Sys2Proof.Machine.execSensorExchangeDone t s
  | .stallTimerExpiry t => Sys2Proof.Machine.execStallTimerExpiry t s
  | .motionGrant t => Sys2Proof.Machine.execMotionGrant t s
  | .poseRingWritten t => Sys2Proof.Machine.execPoseRingWritten t s
  | .exchangeRecordWriteDone t => Sys2Proof.Machine.execExchangeRecordWriteDone t s
  | .rampTimerExpiry t => Sys2Proof.Machine.execRampTimerExpiry t s
  | .frameBoundary t => Sys2Proof.Machine.execFrameBoundary t s
  | .consoleHalfReadDone t => Sys2Proof.Machine.execConsoleHalfReadDone t s
  | .scanRowDue t => Sys2Proof.Machine.execScanRowDue t s
  | .litIntervalStart t => Sys2Proof.Machine.execLitIntervalStart t s
  | .litIntervalEnd t => Sys2Proof.Machine.execLitIntervalEnd t s
  | .copyGrant t => Sys2Proof.Machine.execCopyGrant t s
  | .copyReadDone t => Sys2Proof.Machine.execCopyReadDone t s
  | .copyWriteDone t => Sys2Proof.Machine.execCopyWriteDone t s
  | .blockBoundary t => Sys2Proof.Machine.execBlockBoundary t s
  | .cueEntryRead t => Sys2Proof.Machine.execCueEntryRead t s
  | .captureRecordWriteDone t => Sys2Proof.Machine.execCaptureRecordWriteDone t s
  | .powerSample t reading => Sys2Proof.Machine.execPowerSample t reading s
  | .housekeepingGrant t => Sys2Proof.Machine.execHousekeepingGrant t s
  | .noticeEntryWriteDone t => Sys2Proof.Machine.execNoticeEntryWriteDone t s
  | .noticeProducerWriteDone t => Sys2Proof.Machine.execNoticeProducerWriteDone t s
  | .statusTimerExpiry t => Sys2Proof.Machine.execStatusTimerExpiry t s
  | .bootWriteDone t => Sys2Proof.Machine.execBootWriteDone t s
  | .partHalfWriteDone t => Sys2Proof.Machine.execPartHalfWriteDone t s
  | .restartWriteDone t => Sys2Proof.Machine.execRestartWriteDone t s
  | .statusBlockWriteDone t => Sys2Proof.Machine.execStatusBlockWriteDone t s
  | .motionAccessDone t => Sys2Proof.Machine.execMotionAccessDone t s
  | .scanAccessDone t => Sys2Proof.Machine.execScanAccessDone t s
  | .audioGrant t => Sys2Proof.Machine.execAudioGrant t s
  | .audioAccessDone t => Sys2Proof.Machine.execAudioAccessDone t s
  | .codecFrame t mic => Sys2Proof.Machine.execCodecFrame t mic s

end Sys2Proof.Machine
end

