-- ==== Sys2Proof/Safety.lean ====
section
/-! DEFINITION. What stays true at every step: the invariants the statements are about. -/

namespace Sys2Proof.Machine

/-- Memory is in canonical form and inside DRAM. -/
def State.memoryOk (s : State) : Prop := s.mem.wf = true

/-- No queue or list holds more than the spec gives it room for (R6, R16, R66, R70, R126, R169). -/
structure State.CapacitiesOk (s : State) : Prop where
  inbound : s.tiu.queue.length ≤ Config.queueLimit
  refusals : s.tiu.order.countP Upstream.isRefusal ≤ Config.refusalLimit
  attentions : s.tiu.order.countP Upstream.isAttention ≤ Config.attentionLimit
  notices : (s.hku.noticeProducer - s.hku.noticeConsumer).toNat ≤ Config.noticeLimit
  publication : s.mu.pub.list.length ≤ Config.publicationLimit
  history : s.mu.pub.history.length ≤ Config.historyLimit
  jobs : s.ce.jobs.length ≤ Config.jobLimit

/-- The power level is at most the ceiling, the copy engine is paused exactly at levels 0 and 1, and the hold, the counts and the
window stay in range (R131, R158 to R165). -/
structure State.PowerOk (s : State) : Prop where
  level : s.pu.level ≤ s.pu.ceiling
  paused : s.ce.paused = decide (s.pu.level.val < 2)
  hold : s.pu.hold ≤ 64
  overWindows : s.pu.overCount < 2
  underWindows : s.pu.underCount ≤ 8
  samples : s.pu.sampleCount < 16

/-- The slots in a state, in index order. -/
def Fcu.slotsIn (f : Fcu) (x : SlotState) : List (Fin 4) := allSlots.filter fun k => f.slots[k].state == x

/-- The HKU is between the idle check of an APPLY_LAYOUT and the check of its table. -/
def Hku.awaitsTable (h : Hku) : Bool :=
  match h.work with
  | .tableDue _ | .tableReading _ => true
  | .idle | .taking _ | .halves _ | .restarting _ => false

/-- The present queue holds exactly the QUEUED slots, each once, and one slot is SHOWING exactly when the display is SHOWING, else
none (R84). While a region table is read the display is OFF (R33). -/
structure State.SlotsOk (s : State) : Prop where
  once : s.fcu.queue.Nodup
  queued : ∀ k : Fin 4, k ∈ s.fcu.queue ↔ s.fcu.slots[k].state = .queued
  showing : (s.fcu.slotsIn .showing).length = if s.fcu.display = .showing then 1 else 0
  table : s.hku.awaitsTable = true → s.fcu.display = .off

/-- The jobs in the queue that mark a slot. -/
def Ce.marking (c : Ce) (k : Fin 4) : Nat := c.jobs.countP fun j => j.marks.contains k

/-- A slot's copy-pending count is the number of queued or running jobs that mark it; a WAITING slot has one, a QUEUED slot none
(R83, R134). While a region table is read there is no job (R33). -/
structure State.MarksOk (s : State) : Prop where
  once : ∀ j ∈ s.ce.jobs, j.marks.Nodup
  count : ∀ k : Fin 4, s.fcu.slots[k].copyPending = s.ce.marking k
  waiting : ∀ k : Fin 4, s.fcu.slots[k].state = .waiting → s.fcu.slots[k].copyPending ≠ 0
  queued : ∀ k : Fin 4, s.fcu.slots[k].state = .queued → s.fcu.slots[k].copyPending = 0
  table : s.hku.awaitsTable = true → s.ce.jobs = []

/-- With the link DOWN the flow state is RUNNING; with it UP and 48 or more requests in the queue it is HELD (R11, R14, R17). -/
structure State.FlowOk (s : State) : Prop where
  down : s.tiu.link = .down → s.tiu.flow = .running
  held : s.tiu.link = .up → Config.holdCount ≤ s.tiu.queue.length → s.tiu.flow = .held

/-- The applied layout is without fault for the slot size of some boot settings: aligned, inside DRAM, above the Anchor Block, its regions
disjoint and their sizes allowed (R32, R34). Without one the display is OFF, both streams are stopped, and motion is OFF with no record
to publish and no sample to read (R58, R89, R140, R153). -/
structure State.LayoutOk (s : State) : Prop where
  sound : ∀ l, s.hku.layout = some l → ∃ c : Settings, l.fault c.slotSize = none
  rings : ∀ l, s.hku.layout = some l → 0 < l.frameArea.size ∧ (16 ≤ l.poseRing.size ∧ l.poseRing.size ≤ 4096) ∧
    (1024 ≤ l.playback.size ∧ l.playback.size ≤ 262144) ∧ (16 ≤ l.capture.size ∧ l.capture.size ≤ 1024)
  bases : ∀ l, s.hku.layout = some l → 0x1000 ≤ l.frameArea.base ∧ 0x1000 ≤ l.poseRing.base ∧ 0x1000 ≤ l.playback.base ∧
    0x1000 ≤ l.capture.base
  display : s.hku.layout = none → s.fcu.display = .off
  streams : s.hku.layout = none → s.au.playback = .stopped ∧ s.au.capturing = false
  motion : s.hku.layout = none → s.mu.motion = .off ∧ s.mu.pub.list = [] ∧ s.mu.sensor.ready = none ∧
    ∀ at_, s.mu.sensor.busy ≠ some (.read at_ true)

/-- A sequence lies above every sequence of a list of records. -/
def above (q : Word) (l : List PoseRecord) : Prop := ∀ r ∈ l, r.sequence < q

/-- Records of a list stand in strictly increasing sequence. -/
def increasing (l : List PoseRecord) : Prop := l.Pairwise fun a b => a.sequence < b.sequence

/-- History, then publication list, then the next sequence: strictly increasing (R65, R66, R70). The ring writes under way are
those of the head of the list (R66, R68), the list is empty in OFF (R77), and what is presented for a request is an access of the
inbound client (R8). -/
structure State.PosesOk (s : State) : Prop where
  increasing : increasing (s.mu.pub.history ++ s.mu.pub.list)
  next : ∀ q, s.mu.pub.nextSeq = some q → above q (s.mu.pub.history ++ s.mu.pub.list)
  off : s.mu.motion = .off → s.mu.pub.list = []
  granted : s.mu.pub.headGranted = true → s.mu.pub.list ≠ []
  written : s.mu.pub.headWritten = true → s.mu.pub.headGranted = true
  record : ∀ a, s.port = some a → a.live = true → a.kind = .ringRecord → s.mu.pub.headGranted = true
  control : ∀ a r, s.port = some a → a.live = true → a.kind = .ringControl r →
    s.mu.pub.headGranted = true ∧ s.mu.pub.list.head? = some r
  inbound : ∀ a, s.tiu.service = .presented a → a.kind.client = .inbound

/-- A read of a tag in the inbound queue. -/
def Request.reads (tag : Fin 32) : Request → Bool
  | .read _ _ x => x == tag
  | .write _ _ _ => false

/-- An access that reads for a tag. -/
def Access.reads (tag : Fin 32) (a : Access) : Bool := a.kind == .inboundRead tag

/-- A service that holds a read for a tag. -/
def Service.reads (tag : Fin 32) : Service → Bool
  | .presented a => a.reads tag
  | .idle | .atPort | .raising _ => false

/-- The OK answer of a tag. -/
def Upstream.answers (tag : Fin 32) : Upstream → Bool
  | .readData x .ok _ => x == tag
  | .readData _ _ _ | .attention _ _ => false

/-- The reads of a tag inside the part: queued, in service, at the port or answered and not yet sent. -/
def State.readsOf (s : State) (tag : Fin 32) : Nat :=
  s.tiu.queue.countP (Request.reads tag) + (if s.tiu.service.reads tag then 1 else 0) +
    (if s.port.any (Access.reads tag) then 1 else 0) + s.tiu.order.countP (Upstream.answers tag)

/-- A tag is OUTSTANDING exactly while one read of it is inside the part, and FREE exactly while none is (R5). An inbound access
is at the port only for the request in service (R8). -/
structure State.TagsOk (s : State) : Prop where
  service : ∀ a, s.port = some a → a.kind.client = .inbound → s.tiu.service = .atPort
  reads : ∀ tag : Fin 32, s.readsOf tag = if s.tiu.tags[tag] = .outstanding then 1 else 0

end Sys2Proof.Machine
end

