-- ==== Sys2Proof/Certificates/Slice0/Obligations.lean ====
section
/-! DEFINITION. The statements. `.settle` stands for what follows every step at once (Obligations.SettleGrantsThePort),
`.finishTaking` for the end of a command's taking and `.refuse` for its refusal (Obligations.TakingEnds), `.post` for the posting
of a notice (Obligations.NoticePosted), `.served t a` for the state in which a completed access leaves the port. `s.granted` is `s`
with the grants made that are due: `s.granted = s` says that none is. A step in a state where one is due is the step with it made
(Obligations.SettleGrantsThePort), and behind a busy port none is. A watched-word event, or the taking of a command, at the time of the
step before it, `t = s.now`, falls together with the grants due and comes before them (R75, R131, log entries 10 and 55). -/

open Sys2Proof Sys2Proof.Machine

/-! ### The queue of commands, reset and the boot load -/

/-- A step runs the command at the front of the queue, with the queue's rest; on an empty queue the machine idles, which is the
model's choice (log entry 4). -/
def Obligations.StepRunsFrontCommand : Prop :=
  (∀ (c : Instr) (rest : List Instr) (s : State), s.pending = c :: rest → step s = exec c { s with pending := rest }) ∧
  ∀ s : State, s.pending = [] → step s = .next s

/-- What follows every step at once: a busy port stays as it is; a free one is granted to a waiting scan-out access, else, with
no audio access waiting, to the inbound access presented; a link that is UP and idle begins to transmit, flow messages first; nothing
else changes (R15, R18, R19). A grant to another client is due when the port is free and no client above it waits, and it comes before
any other step (R19): every step but the grant rows is that step with the grant made. A watched-word event, or the taking of a
command whose record has been read, that falls together with the grant is the exception, and the grant follows it or is made first by its
row (R75, R131, log entries 10 and 55). The grant that is due is what the client's own row
makes: AUDIO_GRANT, MOTION_GRANT, HOUSEKEEPING_GRANT, COPY_GRANT, of which the read of a command record leaves the port to a copy grant
(rows of their own: log entry 8; the record: log entry 11). -/
def Obligations.SettleGrantsThePort : Prop :=
  (∀ s : State,
    (∀ a, s.port = some a → s.settle.port = some a ∧ s.settle.tiu.service = s.tiu.service) ∧
    (s.port = none → ∀ a, s.scanWaiting = some a → s.settle.port = some a ∧ s.settle.tiu.service = s.tiu.service) ∧
    (s.port = none → s.scanWaiting = none → ∀ a, s.au.waiting = [] → s.tiu.service = .presented a →
      s.settle.port = some a ∧ s.settle.tiu.service = .atPort) ∧
    (s.port = none → s.scanWaiting = none → (s.au.waiting ≠ [] ∨ s.inboundWaiting = false) →
      s.settle.port = none ∧ s.settle.tiu.service = s.tiu.service) ∧
    (s.tiu.link = .up → s.tiu.sending = none → s.tiu.flowOut ≠ [] → s.settle.tiu.sending = some .flow) ∧
    (s.tiu.link = .up → s.tiu.sending = none → s.tiu.flowOut = [] → s.tiu.order ≠ [] →
      s.settle.tiu.sending = some .order) ∧
    (s.tiu.link = .down ∨ s.tiu.sending ≠ none ∨ (s.tiu.flowOut = [] ∧ s.tiu.order = []) →
      s.settle.tiu.sending = s.tiu.sending) ∧
    s.settle = { s with
      port := s.settle.port
      tiu := { s.tiu with service := s.settle.tiu.service, sending := s.settle.tiu.sending } }) ∧
  (∀ (i : Instr) (s : State),
    (∀ t, i ≠ .audioGrant t ∧ i ≠ .motionGrant t ∧ i ≠ .housekeepingGrant t ∧ i ≠ .copyGrant t) →
    (∀ t, i ∈ [.commandProducer t, .noticeConsumer t, .poseHold t, .playbackProducer t, .captureConsumer t, .cueRequest t,
      .submitWord t] → t ≠ s.now) →
    (∀ t, i ∈ [.unknownCommand t, .applyLayout t, .restart t, .displayStart t, .displayStop t, .setEyeTrim t, .motionStart t,
      .motionStop t, .setGyroBias t, .playbackStart t, .playbackStop t, .setVolume t, .captureStart t, .captureStop t, .copy t,
      .fill t, .abortCopy t, .powerGrant t, .powerCeiling t, .setAttentionMask t] →
      t ≠ s.now ∨ ∀ r, s.hku.work ≠ .taking r) →
    exec i s = exec i s.granted) ∧
  ∀ s : State,
    let free : Prop := s.port = none ∧ s.scanWaiting = none
    let lower : Prop := free ∧ s.au.waiting = [] ∧ s.inboundWaiting = false
    s.granted.granted = s.granted ∧
    (∀ a, s.port = some a → s.granted = s) ∧
    (s.scanWaiting ≠ none ∨ (s.au.waiting = [] ∧ s.inboundWaiting = true) → s.granted = s) ∧
    (free → s.au.waiting ≠ [] → exec (.audioGrant s.now) s = .next s.granted.settle) ∧
    (lower → s.mu.pub.due ≠ none → exec (.motionGrant s.now) s = .next s.granted.settle) ∧
    (lower → s.mu.pub.due = none → s.housekeepingDue ≠ none → s.housekeepingDue ≠ some .commandRecord →
      exec (.housekeepingGrant s.now) s = .next s.granted.settle) ∧
    (lower → s.mu.pub.due = none → s.housekeepingDue = some .commandRecord → ∃ r : Record,
      let taken : State := { s with hku.work := .taking r }
      exec (.housekeepingGrant s.now) s = .next taken.settle ∧
      exec (.copyGrant s.now) taken = .next s.granted.settle) ∧
    (lower → s.mu.pub.due = none → s.housekeepingDue = none → exec (.copyGrant s.now) s = .next s.granted.settle)

/-- POWER_ON puts every block in its power-on state, with the part BOOTING and the first boot write at the port; DRAM holds what
it held (R26), as do the model's own queue and free value counter. The values are those of the tables of chapters 1 to 10. -/
def Obligations.PowerOnState : Prop :=
  (∀ s : State, exec .powerOn s =
    .next { State.reset with mem := s.mem, freeIndex := s.freeIndex, pending := s.pending }) ∧
  State.reset.port = some ⟨.bootIdentity, 0, .write ((identityBytes 0 0).map some), true⟩ ∧
  State.reset.hku.part = .booting ∧ State.reset.hku.layout = none ∧ State.reset.hku.consumer = 0 ∧
  State.reset.hku.latest = 0 ∧ State.reset.hku.noticeProducer = 0 ∧ State.reset.hku.noticeConsumer = 0 ∧
  State.reset.hku.writeList = [] ∧ State.reset.hku.attentionMask = 0 ∧ State.reset.hku.statusTimer = none ∧
  State.reset.hku.statusDue = false ∧ State.reset.hku.permit = true ∧ State.reset.hku.counters = .zero ∧
  State.reset.tiu.link = .down ∧ State.reset.tiu.flow = .running ∧ State.reset.tiu.queue = [] ∧
  State.reset.tiu.order = [] ∧ (∀ tag : Fin 32, State.reset.tiu.tags[tag] = .free) ∧
  State.reset.fcu.display = .off ∧ State.reset.fcu.queue = [] ∧ State.reset.fcu.stopPending = false ∧
  State.reset.fcu.repeatLimit = 1 ∧ State.reset.fcu.litRequest = 2000 ∧ State.reset.fcu.fill = ⟨0, 0, 0⟩ ∧
  (∀ k : Fin 4, State.reset.fcu.slots[k].state = .free ∧ State.reset.fcu.slots[k].copyPending = 0) ∧
  State.reset.ssu.output = .dark ∧ State.reset.ssu.lit = 0 ∧ State.reset.ssu.stale = false ∧
  State.reset.mu.motion = .off ∧ State.reset.mu.angles = ⟨0, 0, 0⟩ ∧ State.reset.mu.inUse = .hz1000 ∧
  State.reset.mu.pub.history = [] ∧ State.reset.mu.pub.nextSeq = some 1 ∧ State.reset.mu.pub.exchange.front = .ex0 ∧
  State.reset.au.playback = .stopped ∧ State.reset.au.capturing = false ∧ State.reset.au.volume = 32768 ∧
  State.reset.au.threshold = 1 ∧ State.reset.pu.level = 7 ∧ State.reset.pu.ceiling = 7 ∧ State.reset.pu.hold = 0 ∧
  State.reset.pu.rail = false ∧ State.reset.ce.jobs = [] ∧ State.reset.ce.paused = false

/-- BOOT_WRITE_DONE and BOOT_LOAD_COMPLETE: each boot write is followed by the next step of the boot load: identification record,
flash read, identity fields, boot settings piece, fifteen zeroing writes from 0x100 up to 0xFFF, READY (R26). At READY the
status timer, the block boundaries and the power samples begin (R137, R158, R175). The identification record is 64 bytes and the boot
settings piece 192, each field where sections 11.3 and 11.4 put it and every other byte zero (R27, R31, R178), with the boot source codes
of section 11.8. -/
def Obligations.BootLoadSteps : Prop :=
  (∀ (t : Time) (s : State) (a : Access), s.port = some a → a.stop ≤ Config.dramSize →
    (a.kind = .bootIdentity →
      exec (.bootWriteDone t) s = .next { s.served t a with hku.flashDue := true }.settle) ∧
    (a.kind = .bootFields →
      exec (.bootWriteDone t) s = .next { s.served t a with
        port := some ⟨.bootSettings, 0x40, .write (s.hku.settings.bytes.map some), true⟩ }.settle) ∧
    (a.kind = .bootSettings →
      exec (.bootWriteDone t) s = .next { s.served t a with
        port := some ⟨.bootZero 0, 0x100, .write (List.replicate 256 (some 0)), true⟩ }.settle) ∧
    (∀ k : Fin 15, a.kind = .bootZero k → k.val < 14 →
      exec (.bootWriteDone t) s = .next { s.served t a with
        port := some ⟨.bootZero (k + 1), 0x200 + 256 * k.val, .write (List.replicate 256 (some 0)), true⟩ }.settle) ∧
    (a.kind = .bootZero 14 →
      exec (.bootLoadComplete t) s = .next { s.served t a with
        hku := { s.hku with part := .ready, statusTimer := some (t + 10000) }
        au.nextBoundary := some t
        pu.nextSample := some (t + 1000) }.settle)) ∧
  (∀ source adjusted : Nat,
    let b := identityBytes source adjusted
    b.length = 64 ∧ fieldAt b 0 2 = 0x0D37 ∧ fieldAt b 2 2 = 0x7120 ∧ fieldAt b 4 2 = 1 ∧ fieldAt b 6 2 = 0 ∧
      fieldAt b 8 4 = 0x20000000 ∧ fieldAt b 12 1 = source % 256 ∧ fieldAt b 13 1 = adjusted % 256 ∧
      ∀ n, 14 ≤ n → n < 64 → fieldAt b n 1 = 0) ∧
  [BootSource.flash, .defaults].map BootSource.code = [1, 2] ∧ [false, true].map flagCode = [0, 1] ∧
  ∀ c : Settings,
    let b := c.bytes
    let axis (x : AxisSource) : Nat := (if x.source = Source.x then 0 else if x.source = Source.y then 1 else 2) +
      (if x.negative then 128 else 0)
    b.length = 192 ∧ fieldAt b 0 2 = c.panelWidth % 65536 ∧ fieldAt b 2 2 = c.panelHeight % 65536 ∧
      fieldAt b 4 4 = c.framePeriod % 4294967296 ∧ fieldAt b 8 4 = c.litOffset % 4294967296 ∧
      fieldAt b 12 1 = c.guardX % 256 ∧ fieldAt b 13 1 = c.guardY % 256 ∧ fieldAt b 14 2 = c.kx % 65536 ∧
      fieldAt b 16 2 = c.ky % 65536 ∧ fieldAt b 18 1 = (BitVec.ofInt 8 c.trims.left).toNat ∧
      fieldAt b 19 1 = (BitVec.ofInt 8 c.trims.right).toNat ∧ fieldAt b 20 1 = axis c.axisMap.yaw ∧
      fieldAt b 21 1 = axis c.axisMap.pitch ∧ fieldAt b 22 1 = axis c.axisMap.roll ∧ fieldAt b 23 1 = 0 ∧
      halfAt b 24 = c.bias.yaw ∧ halfAt b 26 = c.bias.pitch ∧ halfAt b 28 = c.bias.roll ∧ fieldAt b 30 2 = 0 ∧
      fieldAt b 32 4 = c.defaultGrant % 4294967296 ∧ fieldAt b 36 4 = c.undervoltage % 4294967296 ∧
      (∀ n : Fin 8, fieldAt b (40 + 8 * n.val) 2 = c.levels[n].lit % 65536 ∧
        fieldAt b (42 + 8 * n.val) 2 = c.levels[n].gain % 65536 ∧ fieldAt b (44 + 8 * n.val) 2 = c.levels[n].rate.hz ∧
        fieldAt b (46 + 8 * n.val) 2 = 0) ∧
      ∀ n, 104 ≤ n → n < 192 → fieldAt b n 1 = 0

/-- BOOT_RECORD_READ: the boot settings in force, their source and the settings-adjusted flag (R27 to R30). No answer of the flash, or a
record whose marker or length differs, gives every default; an accepted record gives each setting as written when it lies in its range,
else its default, the axis map whole and the level table field by field. The flag is set exactly when something was replaced. The blocks
take their values, and the boot load goes on; its access at 12 holds four bytes, log entry 25. -/
def Obligations.BootRecordSettings : Prop :=
  ∀ (t : Time) (flash : Option FlashRecord) (s : State), s.granted = s → s.hku.flashDue = true → s.port = none →
    ∃ (c : Settings) (source : BootSource) (adjusted : Bool),
      exec (.bootRecordRead t flash) s = .next { s with
        now := t
        hku := { s.hku with flashDue := false, settings := c, source := some source, adjusted := adjusted }
        ssu.trims := c.trims
        mu.bias := c.bias
        pu.grant := c.defaultGrant
        port := some ⟨.bootFields, 12, .write ((leBytes 1 source.code ++ leBytes 3 (flagCode adjusted)).map some), true⟩ }.settle ∧
      ((∀ r, flash = some r → ¬ (r.marker = 0x5A170720 ∧ r.length = 192)) →
        c = defaultSettings ∧ source = .defaults ∧ adjusted = false) ∧
      (∀ r, flash = some r → r.marker = 0x5A170720 → r.length = 192 →
        let f (off n : Nat) : Nat := fieldAt r.block off n
        let size (v : Nat) : Prop := 256 ≤ v ∧ v ≤ 4096 ∧ v % 8 = 0
        let period : Prop := 6944 ≤ f 4 4 ∧ f 4 4 ≤ 20000
        let lit : Prop := f 8 4 + 500 ≤ c.framePeriod
        let trim (v : Int) : Prop := -64 ≤ v ∧ v ≤ 63
        let grant : Prop := 500 ≤ f 32 4 ∧ f 32 4 ≤ 20000
        let volts : Prop := 3000 ≤ f 36 4 ∧ f 36 4 ≤ 12000
        let axes : Prop := f 20 1 % 4 ≠ 3 ∧ f 21 1 % 4 ≠ 3 ∧ f 22 1 % 4 ≠ 3 ∧
          f 20 1 % 4 ≠ f 21 1 % 4 ∧ f 20 1 % 4 ≠ f 22 1 % 4 ∧ f 21 1 % 4 ≠ f 22 1 % 4
        let axis (v : Nat) : AxisSource :=
          ⟨if v % 4 = 0 then .x else if v % 4 = 1 then .y else .z, decide (128 ≤ v)⟩
        let lits (n : Fin 8) : Prop := 100 ≤ f (40 + 8 * n.val) 2 ∧ f (40 + 8 * n.val) 2 ≤ 20000
        let gains (n : Fin 8) : Prop := f (42 + 8 * n.val) 2 ≤ 32768
        let rates (n : Fin 8) : Prop :=
          f (44 + 8 * n.val) 2 = 500 ∨ f (44 + 8 * n.val) 2 = 1000 ∨ f (44 + 8 * n.val) 2 = 2000
        source = .flash ∧
        c.panelWidth = (if 256 ≤ f 0 2 ∧ f 0 2 ≤ 4096 ∧ f 0 2 % 8 = 0 then f 0 2 else 1440) ∧
        c.panelHeight = (if 256 ≤ f 2 2 ∧ f 2 2 ≤ 4096 ∧ f 2 2 % 8 = 0 then f 2 2 else 1600) ∧
        c.framePeriod = (if 6944 ≤ f 4 4 ∧ f 4 4 ≤ 20000 then f 4 4 else 11111) ∧
        c.litOffset = (if f 8 4 + 500 ≤ c.framePeriod then f 8 4 else 1800) ∧
        c.guardX = f 12 1 ∧ c.guardY = f 13 1 ∧
        c.kx = (if 0x0100 ≤ f 14 2 then f 14 2 else 0x1A80) ∧ c.ky = (if 0x0100 ≤ f 16 2 then f 16 2 else 0x1A80) ∧
        (let l := signedAt r.block 18 1
         c.trims.left = if -64 ≤ l ∧ l ≤ 63 then l else 0) ∧
        (let e := signedAt r.block 19 1
         c.trims.right = if -64 ≤ e ∧ e ≤ 63 then e else 0) ∧
        (axes → c.axisMap = ⟨axis (f 20 1), axis (f 21 1), axis (f 22 1)⟩) ∧
        (¬ axes → c.axisMap = ⟨⟨.z, false⟩, ⟨.x, false⟩, ⟨.y, false⟩⟩) ∧
        c.bias = ⟨halfAt r.block 24, halfAt r.block 26, halfAt r.block 28⟩ ∧
        c.defaultGrant = (if 500 ≤ f 32 4 ∧ f 32 4 ≤ 20000 then f 32 4 else 4500) ∧
        c.undervoltage = (if 3000 ≤ f 36 4 ∧ f 36 4 ≤ 12000 then f 36 4 else 4400) ∧
        (∀ n : Fin 8,
          (lits n → c.levels[n].lit = f (40 + 8 * n.val) 2) ∧
          (¬ lits n → c.levels[n].lit = (#v[500, 800, 1000, 1200, 1400, 1600, 1800, 2000] : Vector Nat 8)[n]) ∧
          (gains n → c.levels[n].gain = f (42 + 8 * n.val) 2) ∧
          (¬ gains n → c.levels[n].gain =
            (#v[4125, 8231, 11627, 16423, 20675, 26029, 32768, 32768] : Vector Nat 8)[n]) ∧
          (rates n → c.levels[n].rate.hz = f (44 + 8 * n.val) 2) ∧
          (¬ rates n → c.levels[n].rate.hz =
            (#v[500, 500, 1000, 1000, 1000, 1000, 2000, 2000] : Vector Nat 8)[n])) ∧
        (adjusted = true ↔
          ¬ (size (f 0 2) ∧ size (f 2 2) ∧ period ∧ lit ∧ 0x0100 ≤ f 14 2 ∧ 0x0100 ≤ f 16 2 ∧
            trim (signedAt r.block 18 1) ∧ trim (signedAt r.block 19 1) ∧ axes ∧ grant ∧ volts ∧
            ∀ n : Fin 8, lits n ∧ gains n ∧ rates n)))

/-! ### The tether (R1 to R17) -/

/-- LINK_UP makes the link UP, and sends HOLD when the queue holds 48 or more requests (R14). LINK_DOWN discards the upstream
order and the flow messages, frees the tag of each OK answer discarded and no other, and sets the flow state RUNNING (R17). A message
that fails its check, or a WRITE or READ that is not well formed, is counted as a link error and has no other effect (R2). -/
def Obligations.LinkWorks : Prop :=
  ∀ (t : Time) (s : State), s.granted = s →
    let counted : State := { s with now := t, hku.counters.linkErrors := s.hku.counters.linkErrors + 1 }
    (s.hku.part = .ready → s.tiu.link = .down → s.tiu.flow = .running → s.tiu.queue.length < 48 →
      exec (.linkUp t) s = .next { s with now := t, tiu.link := .up }.settle) ∧
    (s.hku.part = .ready → s.tiu.link = .down → s.tiu.flow = .running → 48 ≤ s.tiu.queue.length →
      exec (.linkUp t) s = .next { s with
        now := t
        tiu := { s.tiu with link := .up, flow := .held, flowOut := s.tiu.flowOut ++ [FlowMessage.hold] } }.settle) ∧
    (s.tiu.link = .up → ∃ tags : Vector TagState 32,
      exec (.linkDown t) s = .next { s with
        now := t
        tiu := { s.tiu with
          link := .down, flow := .running, order := [], flowOut := [], sending := none, tags := tags } }.settle ∧
      ∀ tag : Fin 32, tags[tag] = if s.tiu.order.any (Upstream.answers tag) then .free else s.tiu.tags[tag]) ∧
    (s.tiu.link = .up → exec (.badMessage t) s = .next counted.settle) ∧
    (∀ addr len data, s.tiu.link = .up →
      ¬ (addr.toNat % 4 = 0 ∧ len.toNat % 4 = 0 ∧ 4 ≤ len.toNat ∧ len.toNat ≤ 256 ∧ data.length = len.toNat) →
      exec (.write t addr len data) s = .next counted.settle) ∧
    (∀ addr len tag, s.tiu.link = .up →
      ¬ (addr.toNat % 4 = 0 ∧ len.toNat % 4 = 0 ∧ 4 ≤ len.toNat ∧ len.toNat ≤ 256 ∧ tag.toNat < 32) →
      exec (.read t addr len tag) s = .next counted.settle)

/-- A well-formed WRITE: beyond DRAM it is dropped, counted and noticed; at a full queue it is dropped and counted; else it joins
the tail, and HOLD is sent when the count becomes 48 while RUNNING (R4, R6, R7, R12). -/
def Obligations.WriteArrives : Prop :=
  ∀ (t : Time) (s : State) (addr : Word) (len : Half) (data : List Byte), s.granted = s → s.tiu.link = .up →
    addr.toNat % 4 = 0 → len.toNat % 4 = 0 → 4 ≤ len.toNat → len.toNat ≤ 256 → data.length = len.toNat →
    let queue := s.tiu.queue ++ [.write addr len.toNat data]
    (0x20000000 < addr.toNat + len.toNat →
      exec (.write t addr len data) s = .next ({ s with
        now := t
        hku.counters.outOfRangeWrites := s.hku.counters.outOfRangeWrites + 1 }.post
          (.outOfRangeWrite len.toNat addr)).settle) ∧
    (addr.toNat + len.toNat ≤ 0x20000000 → 64 ≤ s.tiu.queue.length →
      exec (.write t addr len data) s = .next { s with
        now := t
        hku.counters.overrunWrites := s.hku.counters.overrunWrites + 1 }.settle) ∧
    (addr.toNat + len.toNat ≤ 0x20000000 → s.tiu.queue.length < 64 →
      ¬ (s.tiu.queue.length = 47 ∧ s.tiu.flow = .running) →
      exec (.write t addr len data) s = .next { s with now := t, tiu.queue := queue }.settle) ∧
    (addr.toNat + len.toNat ≤ 0x20000000 → s.tiu.queue.length = 47 → s.tiu.flow = .running →
      exec (.write t addr len data) s = .next { s with
        now := t
        tiu := { s.tiu with queue := queue, flow := .held, flowOut := s.tiu.flowOut ++ [FlowMessage.hold] } }.settle)

/-- A well-formed READ: beyond DRAM it is answered OUT_OF_RANGE, with its tag OUTSTANDING TAG_IN_USE, at a full queue REFUSED_FULL,
each answer discarded when 32 refusals wait; else its tag becomes OUTSTANDING and it joins the tail (R4 to R7, R12, R16). -/
def Obligations.ReadArrives : Prop :=
  ∀ (t : Time) (s : State) (addr : Word) (len : Half) (tag : Byte) (x : Fin 32), s.granted = s → s.tiu.link = .up →
    addr.toNat % 4 = 0 → len.toNat % 4 = 0 → 4 ≤ len.toNat → len.toNat ≤ 256 → tag.toNat = x.val →
    let refused (o : ReadOutcome) : State := { s with
      now := t
      tiu.order := if s.tiu.order.countP Upstream.isRefusal < 32 then s.tiu.order ++ [.readData x o []] else s.tiu.order }
    let queue := s.tiu.queue ++ [.read addr len.toNat x]
    (0x20000000 < addr.toNat + len.toNat → exec (.read t addr len tag) s = .next (refused .outOfRange).settle) ∧
    (addr.toNat + len.toNat ≤ 0x20000000 → s.tiu.tags[x] = .outstanding →
      exec (.read t addr len tag) s = .next (refused .tagInUse).settle) ∧
    (addr.toNat + len.toNat ≤ 0x20000000 → s.tiu.tags[x] = .free → 64 ≤ s.tiu.queue.length →
      exec (.read t addr len tag) s = .next (refused .refusedFull).settle) ∧
    (addr.toNat + len.toNat ≤ 0x20000000 → s.tiu.tags[x] = .free → s.tiu.queue.length < 64 →
      ¬ (s.tiu.queue.length = 47 ∧ s.tiu.flow = .running) →
      exec (.read t addr len tag) s = .next { s with
        now := t
        tiu := { s.tiu with queue := queue, tags := s.tiu.tags.set x .outstanding } }.settle) ∧
    (addr.toNat + len.toNat ≤ 0x20000000 → s.tiu.tags[x] = .free → s.tiu.queue.length = 47 → s.tiu.flow = .running →
      exec (.read t addr len tag) s = .next { s with
        now := t
        tiu := { s.tiu with
          queue := queue
          tags := s.tiu.tags.set x .outstanding
          flow := .held
          flowOut := s.tiu.flowOut ++ [FlowMessage.hold] } }.settle)

/-- A notice takes the position of the producer count modulo 64 and joins the write list, or, with 64 notices unread, is dropped
and counted; nothing else changes (R169). TIME_MARK posts its notice at its arrival (R3, R177). An entry is 16 bytes, its kind, detail,
time and data where section 11.6 puts them, with the value codes of section 11.8. That the list may pass 64 is log entry 49. -/
def Obligations.NoticePosted : Prop :=
  (∀ (t : Time) (s : State),
    (∀ n, (s.hku.noticeProducer - s.hku.noticeConsumer).toNat < 64 →
      s.post n = { s with
        hku.noticeProducer := s.hku.noticeProducer + 1
        hku.writeList := s.hku.writeList ++ [⟨s.hku.noticeProducer.toNat % 64, s.now, n⟩] }) ∧
    (∀ n, 64 ≤ (s.hku.noticeProducer - s.hku.noticeConsumer).toNat →
      s.post n = { s with hku.counters.noticesLost := s.hku.counters.noticesLost + 1 }) ∧
    (∀ markId consoleTime, s.granted = s → s.tiu.link = .up →
      exec (.timeMark t markId consoleTime) s = .next ({ s with now := t }.post (.timeMark markId consoleTime)).settle)) ∧
  (let entry (n : Notice) (kind detail low high : Nat) : Prop := ∀ (position : Nat) (time : Time),
     let b := (⟨position, time, n⟩ : Posted).bytes
     b.length = 16 ∧ fieldAt b 0 1 = kind ∧ fieldAt b 1 3 = detail % 16777216 ∧ fieldAt b 4 4 = time.toNat ∧
       fieldAt b 8 4 = low % 4294967296 ∧ fieldAt b 12 4 = high % 4294967296
   (∀ (reason : Reason) (i : Word) (code tag : Half),
     entry (.cmdRefused reason none i code tag) 1 reason.code i.toNat (code.toNat + 65536 * tag.toNat) ∧
     ∀ (e : Fin 4) (f : LayoutFault), entry (.cmdRefused reason (some (e.val, f)) i code tag) 1
       (reason.code + 256 * e.val + 65536 * f.code) i.toNat (code.toNat + 65536 * tag.toNat)) ∧
   (∀ a b : Word, entry (.commandsLost a b) 2 0 a.toNat b.toNat ∧ entry (.playbackStarved a b) 16 0 a.toNat b.toNat ∧
     entry (.playbackOverrun a b) 17 0 a.toNat b.toNat) ∧
   (∀ (i : Word) (tag : Half), entry (.restarted i tag) 3 0 i.toNat tag.toNat) ∧
   (∀ (n : Nat) (a : Word), entry (.refusedWrite n a) 4 n a.toNat 0 ∧ entry (.outOfRangeWrite n a) 5 n a.toNat 0) ∧
   (∀ (id : Byte) (c : BitVec 64), entry (.timeMark id c) 6 id.toNat c.toNat (c.toNat / 4294967296)) ∧
   (∀ (k : Fin 4) (v q : Word), entry (.frameSkipped k v) 7 k.val v.toNat 0 ∧
     entry (.contentResumed k v) 9 k.val v.toNat 0 ∧ entry (.poseStale k v q) 10 k.val v.toNat q.toNat) ∧
   (∀ (k : Fin 4) (n : Nat), n < 256 → entry (.contentLost k n) 8 (k.val + 256 * n) 0 0) ∧
   (∀ (w : StopWhere) (n : Nat), n < 256 → entry (.displayStopped w n) 11 (w.code + 256 * n) 0 0) ∧
   (∀ x : Time, entry (.sensorStall x) 12 0 x.toNat 0 ∧ entry (.sensorResumed x) 13 0 x.toNat 0) ∧
   (∀ (p : Nat) (q : Word), entry (.poseRingHalf p q) 14 p q.toNat 0 ∧ entry (.poseRingWrap p q) 15 p q.toNat 0 ∧
     entry (.captureHalf p q) 21 p q.toNat 0 ∧ entry (.captureWrap p q) 22 p q.toNat 0 ∧
     entry (.captureOverflow q) 23 0 q.toNat 0) ∧
   (∀ (i : Fin 4) (m : CueMode) (n : Nat) (f : CueFault), entry (.cueDone i m n) 18 (i.val + 256 * m.code) n 0 ∧
     entry (.cueReplaced i m) 19 (i.val + 256 * m.code) 0 0 ∧
     entry (.cueRefused i m f) 20 (i.val + 256 * m.code + 65536 * f.code) 0 0) ∧
   (∀ (b a : Fin 8) (c : LevelCause) (n v i : Nat),
     entry (.powerLevelChanged b a c n) 24 (b.val + 256 * a.val + 65536 * c.code) n 0 ∧
     entry (.undervoltage b v i) 25 b.val v i) ∧
   (∀ (k : JobKind) (o : JobOutcome) (tag : Half) (n : Nat),
     entry (.copyDone k o tag n) 26 (k.code + 256 * o.code) tag.toNat n)) ∧
  [Reason.unknown, .badParam, .notIdle, .badLayout, .noLayout, .busy, .notRunning, .queueFull, .protectedRange, .targetBusy,
    .noSuchJob].map Reason.code = [1, 2, 3, 4, 5, 6, 7, 8, 9, 10, 11] ∧
  [LayoutFault.size, .align, .outside, .anchor, .overlap].map LayoutFault.code = [1, 2, 3, 4, 5] ∧
  [CueMode.mix, .duck].map CueMode.code = [0, 1] ∧ [CueFault.length, .align, .range].map CueFault.code = [1, 2, 3] ∧
  [StopWhere.ramp, .boundary].map StopWhere.code = [0, 1] ∧
  [LevelCause.over, .under, .ceiling].map LevelCause.code = [1, 2, 3] ∧
  [JobKind.copy, .fill].map JobKind.code = [0, 1] ∧ [JobOutcome.complete, .aborted].map JobOutcome.code = [0, 1]

/-- REQUEST_TAKE with no request in service: the head leaves the queue, and RESUME is sent when the count becomes 16 while HELD
(R8, R13). A READ presents its access. A WRITE is classified byte by byte at this moment; one with refused bytes is counted, and
noticed while the permit is set; one with a landing byte presents its access (R9, R20, R23). It comes after the grants due, log entry
52. -/
def Obligations.RequestTaken : Prop :=
  ∀ (t : Time) (s : State) (r : Request) (rest : List Request), s.granted = s → s.tiu.queue = r :: rest → s.tiu.service = .idle →
    let resumes := rest.length = 16 ∧ s.tiu.flow = .held
    let taken : State := { s with
      now := t
      tiu := { s.tiu with
        queue := rest
        flow := if resumes then .running else s.tiu.flow
        flowOut := if resumes then s.tiu.flowOut ++ [FlowMessage.resume] else s.tiu.flowOut } }
    (∀ addr len tag, r = .read addr len tag →
      exec (.requestTake t) s = .next { taken with
        tiu.service := .presented ⟨.inboundRead tag, addr.toNat, .read len, true⟩ }.settle) ∧
    (∀ addr len data, r = .write addr len data →
      let bytes := data.mapIdx fun i b => if s.partOwned (addr.toNat + i) then none else some b
      let refused := bytes.countP fun b => b.isNone
      let noted : State :=
        if refused = 0 then taken
        else if s.hku.permit then { taken with
          hku.counters.refusedWrites := s.hku.counters.refusedWrites + 1
          hku.permit := false }.post (.refusedWrite refused addr)
        else { taken with hku.counters.refusedWrites := s.hku.counters.refusedWrites + 1 }
      (refused = data.length → exec (.requestTake t) s = .next noted.settle) ∧
      (refused < data.length → exec (.requestTake t) s = .next { noted with
        tiu.service := .presented ⟨.inboundWrite (s.covered addr.toNat len), addr.toNat, .write bytes, true⟩ }.settle))

/-- INBOUND_WRITE_DONE: the landing bytes are in memory, and each covered watched word raises its event with the value it now holds, in
the order listed, which is that of address (R24). INBOUND_READ_DONE: the OK answer joins the upstream order, or is discarded and its tag
freed while the link is DOWN (R10; a READ of before a link loss that completes after it: log entry 51). UPSTREAM_MESSAGE_SENT: the message
in transmission leaves; an OK answer frees its tag, a refusal or an ATTENTION does not (R5, R15). The bytes of an upstream message, less
its CRC, are as section 11.2 lays them out, with the outcome codes of section 11.8 (R178). -/
def Obligations.RequestsAnswered : Prop :=
  (∀ (t : Time) (s : State),
    (∀ a : Access, s.port = some a → a.stop ≤ Config.dramSize →
      (∀ watched : List (Watched × Nat), a.kind = .inboundWrite watched →
        exec (.inboundWriteDone t) s = .next { s.served t a with
          tiu.service := if watched = [] then .idle else
            .raising (watched.map fun w : Watched × Nat => (w.1, (a.apply s.mem).word w.2)) }.settle) ∧
      (∀ tag, a.kind = .inboundRead tag → s.tiu.link = .up →
        exec (.inboundReadDone t) s = .next { s.served t a with
          tiu := { s.tiu with
            service := .idle
            order := s.tiu.order ++ [Upstream.readData tag .ok (a.fetch s.mem)] } }.settle) ∧
      (∀ tag, a.kind = .inboundRead tag → s.tiu.link = .down →
        exec (.inboundReadDone t) s = .next { s.served t a with
          tiu := { s.tiu with service := .idle, tags := s.tiu.tags.set tag .free } }.settle)) ∧
    (∀ m rest, s.granted = s → s.tiu.sending = some .flow → s.tiu.flowOut = m :: rest →
      exec (.upstreamMessageSent t) s = .next { s with
        now := t
        tiu := { s.tiu with sending := none, flowOut := rest } }.settle) ∧
    (∀ tag data rest, s.granted = s → s.tiu.sending = some .order → s.tiu.order = .readData tag .ok data :: rest →
      exec (.upstreamMessageSent t) s = .next { s with
        now := t
        tiu := { s.tiu with sending := none, order := rest, tags := s.tiu.tags.set tag .free } }.settle) ∧
    (∀ m rest, s.granted = s → s.tiu.sending = some .order → s.tiu.order = m :: rest → (m.isRefusal ∨ m.isAttention) →
      exec (.upstreamMessageSent t) s = .next { s with
        now := t
        tiu := { s.tiu with sending := none, order := rest } }.settle)) ∧
  (∀ (tag : Fin 32) (o : ReadOutcome) (data : List Byte),
    let b := (Upstream.readData tag o data).bytes
    fieldAt b 0 1 = 0x81 ∧ fieldAt b 1 1 = tag.val ∧ fieldAt b 2 1 = o.code ∧ fieldAt b 3 1 = 0 ∧
      fieldAt b 4 2 = data.length % 65536 ∧ b.drop 6 = data) ∧
  (∀ position kind : Nat,
    let b := (Upstream.attention position kind).bytes
    b.length = 3 ∧ fieldAt b 0 1 = 0x84 ∧ fieldAt b 1 1 = position % 256 ∧ fieldAt b 2 1 = kind % 256) ∧
  FlowMessage.hold.bytes = [0x82] ∧ FlowMessage.resume.bytes = [0x83] ∧
  [ReadOutcome.ok, .refusedFull, .tagInUse, .outOfRange].map ReadOutcome.code = [0, 1, 2, 3]

/-! ### Watched words (R24) -/

/-- COMMAND_PRODUCER: the value becomes the latest producer value. While a record is being taken the comparison is put off, and is then
made once, of the last value (log entry 53); else a producer 0 to 32 ahead changes nothing, one further ahead or behind moves the consumer
count, makes its word due and posts COMMANDS_LOST (R36). NOTICE_CONSUMER: the count takes a value 0 to 64 behind the producer, and is held
at the producer or 64 behind it otherwise (R171). -/
def Obligations.HousekeepingWordsTaken : Prop :=
  ∀ (t : Time) (s : State) (v : Word) (rest : List (Watched × Word)), (s.granted = s ∨ t = s.now) →
    let behind := (s.hku.noticeProducer - v).toInt
    let d := (v - s.hku.consumer).toInt
    let raised : State := { s with
      now := t
      tiu.service := if rest = [] then .idle else .raising rest
      hku.latest := v }
    let event : Prop := s.tiu.service = .raising ((.commandProducer, v) :: rest)
    (event → s.hku.work ≠ .idle →
      exec (.commandProducer t) s = .next { raised with hku.compareDue := true }.settle) ∧
    (event → s.hku.work = .idle → 0 ≤ d → d ≤ 32 →
      exec (.commandProducer t) s = .next { raised with hku.compareDue := false }.settle) ∧
    (event → s.hku.work = .idle → 32 < d →
      exec (.commandProducer t) s = .next ({ raised with
        hku := { raised.hku with compareDue := false, consumer := v - 32, consumerDue := true } }.post
          (.commandsLost (BitVec.ofInt 32 (d - 32)) (v - 32))).settle) ∧
    (event → s.hku.work = .idle → d < 0 →
      exec (.commandProducer t) s = .next ({ raised with
        hku := { raised.hku with compareDue := false, consumer := v, consumerDue := true } }.post
          (.commandsLost 0 v)).settle) ∧
    (s.tiu.service = .raising ((.noticeConsumer, v) :: rest) →
      exec (.noticeConsumer t) s = .next { s with
        now := t
        tiu.service := if rest = [] then .idle else .raising rest
        hku.noticeConsumer := if behind < 0 then s.hku.noticeProducer
          else if behind ≤ 64 then v
          else s.hku.noticeProducer - 64 }.settle)

/-- POSE_HOLD: a nonzero value sets the hold; zero clears it, and flips the exchange when motion is not OFF, reset-due is clear
and missed is set. An event that falls together with a motion grant is taken before it, so that the grant follows R67 from the state it
leaves; the grant's own row is there for the other order (R75, log entry 10). -/
def Obligations.PoseHoldTaken : Prop :=
  ∀ (t : Time) (s : State) (v : Word) (rest : List (Watched × Word)), (s.granted = s ∨ t = s.now) →
    s.tiu.service = .raising ((.poseHold, v) :: rest) →
    let x := s.mu.pub.exchange
    let raised : State := { s with now := t, tiu.service := if rest = [] then .idle else .raising rest }
    (v ≠ 0 → exec (.poseHold t) s = .next { raised with mu.pub.exchange.hold := true }.settle) ∧
    (v = 0 → s.mu.motion ≠ .off → x.resetDue = false → x.missed = true →
      exec (.poseHold t) s = .next { raised with
        mu.pub.exchange := { x with
          hold := false
          front := match x.front with
            | .ex0 => .ex1
            | .ex1 => .ex0
          frontSeq := x.backSeq
          backSeq := x.frontSeq
          missed := false
          indicatorDue := true } }.settle) ∧
    (v = 0 → (s.mu.motion = .off ∨ x.resetDue = true ∨ x.missed = false) →
      exec (.poseHold t) s = .next { raised with mu.pub.exchange.hold := false }.settle)

/-- PLAYBACK_PRODUCER: the value becomes the latest producer, unchecked (R139). CAPTURE_CONSUMER: the count takes a value 0 to
the ring length behind the producer, and is held at the nearer end otherwise (R156); with no layout there is no length, and a
value behind the producer draws a free value (log entry 23). CUE_REQUEST: with the request bit set, the cue becomes pending, and
one already pending is dropped with CUE_REPLACED (R147). -/
def Obligations.AudioWordsTaken : Prop :=
  ∀ (t : Time) (s : State) (v : Word) (rest : List (Watched × Word)), (s.granted = s ∨ t = s.now) →
    let raised : State := { s with now := t, tiu.service := if rest = [] then .idle else .raising rest }
    let d := (s.au.captureProducer - v).toInt
    let cue : Fin 4 × CueMode := (Fin.ofNat 4 v.toNat, if v.getLsbD 8 then .duck else .mix)
    (s.tiu.service = .raising ((.playbackProducer, v) :: rest) →
      exec (.playbackProducer t) s = .next { raised with au.producer := v }.settle) ∧
    (s.tiu.service = .raising ((.captureConsumer, v) :: rest) → ∀ l, s.hku.layout = some l →
      exec (.captureConsumer t) s = .next { raised with
        au.captureConsumer :=
          if d < 0 then s.au.captureProducer
          else if d ≤ l.capture.size then v
          else s.au.captureProducer - BitVec.ofNat 32 l.capture.size }.settle) ∧
    (s.tiu.service = .raising ((.captureConsumer, v) :: rest) → s.hku.layout = none → ∃ (c : Word) (i : Nat),
      exec (.captureConsumer t) s = .next { raised with au.captureConsumer := c, freeIndex := i }.settle ∧
      (d ≤ 0 → c = s.au.captureProducer)) ∧
    (s.tiu.service = .raising ((.cueRequest, v) :: rest) → v.getLsbD 31 = false →
      exec (.cueRequest t) s = .next raised.settle) ∧
    (s.tiu.service = .raising ((.cueRequest, v) :: rest) → v.getLsbD 31 = true → s.au.pendingCue = none →
      exec (.cueRequest t) s = .next { raised with au.pendingCue := some cue }.settle) ∧
    (s.tiu.service = .raising ((.cueRequest, v) :: rest) → v.getLsbD 31 = true →
      ∀ index mode, s.au.pendingCue = some (index, mode) →
        exec (.cueRequest t) s =
          .next { raised.post (.cueReplaced index mode) with au.pendingCue := some cue }.settle)

/-- SUBMIT_WORD: a nonzero value submits a FREE slot: QUEUED at the tail with no copies pending, WAITING with some; its part half
is to be rewritten from its values at submission. Zero changes nothing (R82). -/
def Obligations.SlotSubmitted : Prop :=
  ∀ (t : Time) (s : State) (k : Fin 4) (v : Word) (rest : List (Watched × Word)), (s.granted = s ∨ t = s.now) →
    s.tiu.service = .raising ((.submit k, v) :: rest) → s.fcu.slots[k].state = .free →
    let raised : State := { s with now := t, tiu.service := if rest = [] then .idle else .raising rest }
    let slot (x : SlotState) : Slot := { s.fcu.slots[k] with
      state := x, submitValue := v, shown := 0, firstShown := 0, flags := ⟨false, false, false, false, false⟩,
      outcome := .none, shift := ⟨0, 0, 0⟩, headerDue := true }
    (v = 0 → exec (.submitWord t) s = .next raised.settle) ∧
    (v ≠ 0 → s.fcu.slots[k].copyPending = 0 →
      exec (.submitWord t) s = .next { raised with
        fcu := { s.fcu with slots := s.fcu.slots.set k (slot .queued), queue := s.fcu.queue ++ [k] } }.settle) ∧
    (v ≠ 0 → s.fcu.slots[k].copyPending ≠ 0 →
      exec (.submitWord t) s = .next { raised with
        fcu := { s.fcu with slots := s.fcu.slots.set k (slot .waiting) } }.settle)

/-! ### The command ring (R36 to R46) -/

/-- The end of a taking: the consumer count passes the record and its word is due (R37); a producer comparison put off is made then
(R36). A refusal posts CMD_REFUSED first, with the ring index, code, tag and reason (R38, R41). UNKNOWN_COMMAND refuses a code that
is none of the table, whatever its parameters and tag (R40). -/
def Obligations.TakingEnds : Prop :=
  ∀ (t : Time) (s : State),
    (let ended : State := { s with
       hku := { s.hku with consumer := s.hku.consumer + 1, consumerDue := true, work := .idle } }
     s.finishTaking = if s.hku.compareDue then ended.compareProducer else ended) ∧
    (let d := (s.hku.latest - s.hku.consumer).toInt
     let compared : State := { s with hku.compareDue := false }
     (0 ≤ d → d ≤ 32 → s.compareProducer = compared) ∧
     (32 < d → s.compareProducer =
       { compared with hku := { compared.hku with consumer := s.hku.latest - 32, consumerDue := true } }.post
         (.commandsLost (BitVec.ofInt 32 (d - 32)) (s.hku.latest - 32))) ∧
     (d < 0 → s.compareProducer =
       { compared with hku := { compared.hku with consumer := s.hku.latest, consumerDue := true } }.post
         (.commandsLost 0 s.hku.latest))) ∧
    (∀ r reason,
      s.refuse r reason = (s.post (.cmdRefused reason none s.hku.consumer r.code r.tag)).finishTaking) ∧
    (∀ r, (s.granted = s ∨ t = s.now) → s.hku.work = .taking r →
      r.code.toNat ∉ [0x10, 0x11, 0x20, 0x21, 0x28, 0x30, 0x31, 0x32, 0x40, 0x41, 0x42, 0x43, 0x44, 0x50, 0x51, 0x52, 0x60,
        0x61, 0x70] →
      exec (.unknownCommand t) s = .next ({ s with now := t }.refuse r .unknown).settle)

/-- APPLY_LAYOUT: with every unit that uses a region idle, the region table is to be read; else the command is refused NOT_IDLE
(R33). A stream counts as not STOPPED until the accesses of the boundary that stopped it have completed. -/
def Obligations.ApplyLayoutChecked : Prop :=
  ∀ (t : Time) (s : State) (r : Record), (s.granted = s ∨ t = s.now) → s.hku.work = .taking r → r.code = 0x0010 →
    let idle : Prop := s.fcu.display = .off ∧ s.mu.motion = .off ∧ s.au.playback = .stopped ∧ s.au.capturing = false ∧
      s.ce.jobs = [] ∧ (∀ a ∈ s.au.waiting, a.stopping = false) ∧
      (∀ x a, s.port = some x → x.kind = .audio a → a.stopping = false)
    (idle → exec (.applyLayout t) s = .next { s with now := t, hku.work := .tableDue r }.settle) ∧
    (¬ idle → exec (.applyLayout t) s = .next ({ s with now := t }.refuse r .notIdle).settle)

/-- LAYOUT_TABLE_READ: a table with a fault is refused BAD_LAYOUT with entry and fault, and the applied layout stays (R34, R41). A sound
one becomes the applied layout, every slot is FREE with its header due, the present queue is empty, and the capture consumer count is held
to within the new ring (R35; R136 says that no AU state changes, and to follow R35 is the model's choice, log entry 47).
PART_HALF_WRITE_DONE: the taking ends with the last of the four slots' writes (R35). -/
def Obligations.LayoutApplied : Prop :=
  ∀ (t : Time) (s : State) (a : Access), s.port = some a → a.stop ≤ Config.dramSize →
    (∀ r, s.hku.work = .tableReading r → a.kind = .layoutTable →
      let l := layoutOf (a.fetch s.mem)
      let lead := (s.au.captureProducer - s.au.captureConsumer).toNat
      (∀ entry fault, l.fault s.hku.settings.slotSize = some (entry, fault) →
        exec (.layoutTableRead t) s = .next ((s.served t a).post
          (.cmdRefused .badLayout (some (entry, fault)) s.hku.consumer r.code r.tag)).finishTaking.settle) ∧
      (l.fault s.hku.settings.slotSize = none →
        exec (.layoutTableRead t) s = .next { s.served t a with
          hku := { s.hku with layout := some l, work := .halves [0, 1, 2, 3] }
          fcu := { s.fcu with
            queue := []
            slots := Vector.replicate 4
              { state := .free, copyPending := 0, shown := 0, submitValue := 0, half := none, headerDue := true,
                firstShown := 0, flags := ⟨false, false, false, false, false⟩, outcome := .none, shift := ⟨0, 0, 0⟩ } }
          au.captureConsumer :=
            if l.capture.size < lead then s.au.captureProducer - BitVec.ofNat 32 l.capture.size
            else s.au.captureConsumer }.settle)) ∧
    (∀ k left, a.kind = .partHalf k → s.hku.work = .halves left →
      (left.erase k = [] → exec (.partHalfWriteDone t) s = .next (s.served t a).finishTaking.settle) ∧
      (left.erase k ≠ [] →
        exec (.partHalfWriteDone t) s = .next { s.served t a with hku.work := .halves (left.erase k) }.settle)) ∧
    (∀ k, a.kind = .partHalf k → (∀ left, s.hku.work ≠ .halves left) →
      exec (.partHalfWriteDone t) s = .next (s.served t a).settle)

/-- A region table is sound exactly when every size is allowed (R32), every base is a multiple of 256, every extent lies in DRAM
above the Anchor Block, and no two extents share a byte (R34). One that is not is reported with its lowest-numbered faulty entry and
that entry's first fault in the order SIZE, ALIGN, OUTSIDE, ANCHOR, OVERLAP (R34; the extents of the other three entries are those of
their words as read, log entry 34). -/
def Obligations.RegionTableSound : Prop :=
  ∀ (slotSize : Nat) (l : Layout),
    let regions : List (Nat × Nat) := [(l.frameArea.base, 4 * l.frameArea.size), (l.poseRing.base, 32 * l.poseRing.size),
      (l.playback.base, 4 * l.playback.size), (l.capture.base, 208 * l.capture.size)]
    (l.fault slotSize = none ↔
      (slotSize ≤ l.frameArea.size ∧ l.frameArea.size ≤ 0x20000000 ∧ l.frameArea.size % 256 = 0) ∧
      (16 ≤ l.poseRing.size ∧ l.poseRing.size ≤ 4096) ∧
      (1024 ≤ l.playback.size ∧ l.playback.size ≤ 262144 ∧ l.playback.size % 48 = 0) ∧
      (16 ≤ l.capture.size ∧ l.capture.size ≤ 1024) ∧
      (∀ p ∈ regions, p.1 % 256 = 0 ∧ 0x1000 ≤ p.1 ∧ p.1 + p.2 ≤ 0x20000000) ∧
      regions.Pairwise fun p q => ∀ a, ¬ ((p.1 ≤ a ∧ a < p.1 + p.2) ∧ (q.1 ≤ a ∧ a < q.1 + q.2))) ∧
    (let base : Vector Nat 4 := #v[l.frameArea.base, l.poseRing.base, l.playback.base, l.capture.base]
     let extent : Vector Nat 4 :=
       #v[4 * l.frameArea.size, 32 * l.poseRing.size, 4 * l.playback.size, 208 * l.capture.size]
     let allowed (e : Fin 4) : Prop := match e with
       | 0 => slotSize ≤ l.frameArea.size ∧ l.frameArea.size ≤ 0x20000000 ∧ l.frameArea.size % 256 = 0
       | 1 => 16 ≤ l.poseRing.size ∧ l.poseRing.size ≤ 4096
       | 2 => 1024 ≤ l.playback.size ∧ l.playback.size ≤ 262144 ∧ l.playback.size % 48 = 0
       | 3 => 16 ≤ l.capture.size ∧ l.capture.size ≤ 1024
     let shares (e o : Fin 4) : Prop :=
       ∃ a, (base[e] ≤ a ∧ a < base[e] + extent[e]) ∧ (base[o] ≤ a ∧ a < base[o] + extent[o])
     let sized (e : Fin 4) : Prop := allowed e
     let aligned (e : Fin 4) : Prop := sized e ∧ base[e] % 256 = 0
     let inside (e : Fin 4) : Prop := aligned e ∧ base[e] + extent[e] ≤ 0x20000000
     let beyond (e : Fin 4) : Prop := inside e ∧ 0x1000 ≤ base[e]
     let sound (e : Fin 4) : Prop := beyond e ∧ ∀ o, o ≠ e → ¬ shares e o
     ∀ e : Fin 4, (∀ d, d < e → sound d) →
       (¬ sized e → l.fault slotSize = some (e.val, .size)) ∧
       (sized e → ¬ aligned e → l.fault slotSize = some (e.val, .align)) ∧
       (aligned e → ¬ inside e → l.fault slotSize = some (e.val, .outside)) ∧
       (inside e → ¬ beyond e → l.fault slotSize = some (e.val, .anchor)) ∧
       (beyond e → ¬ sound e → l.fault slotSize = some (e.val, .overlap)))

/-- RESTART is never refused: at one moment every unit goes to its start (R42, R43), the counts are zeroed (R44), RESTARTED takes
position 0 and every counter is 0 (R45), and what R46 names stays. An access in service goes on (R18); that of the picture, of motion, of
a copy job and of a cue table entry does no more (R42, R77, R101), and, the model's choice, a notice write neither (log entry 48). The
sensor is stopped behind the exchange in progress (R47, R48). The cut of the accesses of the taking is log entry 24, the slot fields kept
are 27, the block in play 28, a configuration that waits 14, the MU fields that R43 does not name 44. -/
def Obligations.RestartTaken : Prop :=
  ∀ (t : Time) (s : State) (r : Record), (s.granted = s ∨ t = s.now) → s.hku.work = .taking r → r.code = 0x0011 → ∃ u : State,
    exec (.restart t) s = .next u.settle ∧
    u.now = t ∧ u.mem = s.mem ∧ u.tiu = s.tiu ∧ u.freeIndex = s.freeIndex ∧ u.pending = s.pending ∧
    (s.port = none → u.port = none) ∧
    (∀ a, s.port = some a →
      let ends : Prop := a.kind.client = .scanOut ∨ a.kind.client = .motion ∨ a.kind.client = .copy ∨ a.kind = .noticeEntry ∨
        (∃ written, a.kind = .noticeProducer written) ∨
        ∃ index mode late stopping, a.kind = .audio ⟨.cueEntry index mode, late, stopping⟩
      (ends → u.port = some { a with live := false }) ∧ (¬ ends → u.port = some a)) ∧
    u.fcu = { s.fcu with
      slots := u.fcu.slots, queue := [], display := .off, stopPending := false, contentLost := false, ramp := none,
      boundary := none } ∧
    (∀ k : Fin 4, u.fcu.slots[k] = { s.fcu.slots[k] with
      state := .free, copyPending := 0, shown := 0, submitValue := 0, half := none, headerDue := false }) ∧
    u.ssu = { boundaryTime := s.ssu.boundaryTime, lit := 0, trims := s.hku.settings.trims, requested := none,
              results := ⟨⟨0, 0, 0⟩, false, false, false, false⟩, stale := false, output := .dark, chosen := none, rowsDue := 0,
              scan := none, litInterval := false, left := ⟨none, s.ssu.left.ended⟩, right := ⟨none, s.ssu.right.ended⟩ } ∧
    u.mu = { s.mu with
      motion := .off, stall := none, bias := s.hku.settings.bias, sensor := u.mu.sensor,
      pub := { s.mu.pub with
        list := [], headGranted := false, headWritten := false, history := [], pending := none, ringRestartDue := false,
        exchange := ⟨.ex0, 0, 0, false, false, false, false⟩ } } ∧
    (s.mu.motion = .off → u.mu.sensor = s.mu.sensor) ∧
    (s.mu.motion ≠ .off →
      let cleared : SensorPort := { s.mu.sensor with rateWaiting := none, ready := none, stopWaiting := true }
      (s.mu.sensor.busy = none → u.mu.sensor = { cleared with busy := some .stop, stopWaiting := false }) ∧
      (∀ at_ wanted, s.mu.sensor.busy = some (.read at_ wanted) →
        u.mu.sensor = { cleared with busy := some (.read at_ false) }) ∧
      (∀ e, s.mu.sensor.busy = some e → (∀ at_ wanted, e ≠ .read at_ wanted) → u.mu.sensor = cleared)) ∧
    u.au = { s.au with
      playback := .stopped, playbackStop := false, producer := 0, consumer := 0, cue := none, pendingCue := none,
      startingCue := none, capturing := false, captureStop := false, captureProducer := 0, captureConsumer := 0,
      captureSeq := 0, gathering := none, overflow := false, waiting := [] } ∧
    u.pu = { s.pu with
      level := s.pu.ceiling, accumulator := 0, sampleCount := 0, overCount := 0, underCount := 0, hold := 0, rail := false } ∧
    u.ce = ⟨[], ⟨0, 0, none, 0⟩, decide (s.pu.ceiling.val < 2)⟩ ∧
    u.hku = { s.hku with
      consumer := 0, latest := 0, compareDue := false, consumerDue := false,
      work := .restarting ((if s.hku.layout.isSome then [.slotRead 0, .slotRead 1, .slotRead 2, .slotRead 3] else []) ++
        [.words, .notices 0, .notices 1, .notices 2, .notices 3]),
      noticeProducer := 1, noticeWritten := 0, noticeShown := 0, noticeConsumer := 0,
      writeList := [⟨0, t, .restarted s.hku.consumer r.tag⟩], unshown := [],
      statusTimer := if s.fcu.display = .blank ∨ s.fcu.display = .showing then some (t + 10000) else s.hku.statusTimer,
      statusCount := 0, permit := true, counters := ⟨0, 0, 0, 0, 0, 0, 0, 0, 0, 0, 0⟩ }

/-- RESTART_WRITE_DONE: each access of the taking is followed by the next; a slot's word, once read, is written back with its state
FREE and its other three bytes as read (R42). The rest are zeros: control words 0 to 12, 52 bytes at 0x140 (R44), and the 64 entries of
the notice queue, 256 bytes at 0x800 and behind it (R45); their cut into accesses and their order are log entry 24. After the last one the
taking ends with the consumer word due, to be written as its count stands, 0 unless a comparison moves it (log entry 31). -/
def Obligations.RestartWrites : Prop :=
  (∀ (t : Time) (s : State) (a : Access), s.port = some a → a.stop ≤ Config.dramSize → a.kind = .restart →
    (∀ k rest, s.hku.work = .restarting (.slotRead k :: rest) →
      exec (.restartWriteDone t) s = .next { s.served t a with
        hku.work := .restarting (.slotWrite k ((a.fetch s.mem).drop 1) :: rest) }.settle) ∧
    (∀ step next rest, (∀ k, step ≠ .slotRead k) → s.hku.work = .restarting (step :: next :: rest) →
      exec (.restartWriteDone t) s = .next { s.served t a with hku.work := .restarting (next :: rest) }.settle) ∧
    (∀ step, (∀ k, step ≠ .slotRead k) → s.hku.work = .restarting [step] →
      let ended : State := { s.served t a with hku := { s.hku with consumerDue := true, work := .idle } }
      exec (.restartWriteDone t) s =
        .next (if s.hku.compareDue then ended.compareProducer else ended).settle)) ∧
  (∀ (s : State) (l : Layout) (k : Fin 4), s.hku.layout = some l →
    let word := l.frameArea.base + k.val * l.frameArea.size + 32
    s.restartAccess (.slotRead k) = ⟨.restart, word, .read 4, true⟩ ∧
    ∀ rest, s.restartAccess (.slotWrite k rest) = ⟨.restart, word, .write (some 0 :: rest.map some), true⟩) ∧
  (∀ s : State,
    s.restartAccess .words = ⟨.restart, 0x140, .write (List.replicate 52 (some 0)), true⟩ ∧
    ∀ q : Fin 4, s.restartAccess (.notices q) =
      ⟨.restart, 0x800 + 256 * q.val, .write (List.replicate 256 (some 0)), true⟩)

/-! ### Display commands (chapters 5 and 6) -/

/-- DISPLAY_START: refused BAD_PARAM, NO_LAYOUT or BUSY, the first that applies; else the display is POWERING with the panel rail ON
and the ramp timer running (R89). -/
def Obligations.DisplayStarts : Prop :=
  ∀ (t : Time) (s : State) (r : Record), (s.granted = s ∨ t = s.now) → s.hku.work = .taking r → r.code = 0x0020 →
    let limit := fieldAt r.bytes 4 4
    let lit := fieldAt r.bytes 8 4
    let ok : Prop := 1 ≤ limit ∧ limit ≤ 15 ∧ 100 ≤ lit ∧ lit ≤ 20000
    (¬ ok → exec (.displayStart t) s = .next ({ s with now := t }.refuse r .badParam).settle) ∧
    (ok → s.hku.layout = none → exec (.displayStart t) s = .next ({ s with now := t }.refuse r .noLayout).settle) ∧
    (ok → s.hku.layout ≠ none → s.fcu.display ≠ .off →
      exec (.displayStart t) s = .next ({ s with now := t }.refuse r .busy).settle) ∧
    (ok → s.hku.layout ≠ none → s.fcu.display = .off →
      exec (.displayStart t) s = .next ({ s with
        now := t
        fcu := { s.fcu with
          repeatLimit := limit
          litRequest := lit
          fill := ⟨BitVec.ofNat 8 (fieldAt r.bytes 12 1), BitVec.ofNat 8 (fieldAt r.bytes 13 1),
            BitVec.ofNat 8 (fieldAt r.bytes 14 1)⟩
          contentLost := false
          ramp := some (t + 20000)
          display := .powering }
        pu.rail := true }.finishTaking).settle)

/-- DISPLAY_STOP: NOT_RUNNING in OFF; in POWERING the display is OFF at once with DISPLAY_STOPPED; else stop_pending is set (R91).
SET_EYE_TRIM: both trims in -64 to +63 become the requested trims, else BAD_PARAM (R114). -/
def Obligations.DisplayStops : Prop :=
  ∀ (t : Time) (s : State) (r : Record), (s.granted = s ∨ t = s.now) → s.hku.work = .taking r →
    (r.code = 0x0021 → s.fcu.display = .off →
      exec (.displayStop t) s = .next ({ s with now := t }.refuse r .notRunning).settle) ∧
    (r.code = 0x0021 → s.fcu.display = .powering →
      exec (.displayStop t) s = .next (({ s with
        now := t
        fcu := { s.fcu with display := .off, ramp := none }
        pu.rail := false }.post (.displayStopped .ramp 0)).finishTaking).settle) ∧
    (r.code = 0x0021 → (s.fcu.display = .blank ∨ s.fcu.display = .showing) →
      exec (.displayStop t) s = .next ({ s with now := t, fcu.stopPending := true }.finishTaking).settle) ∧
    (r.code = 0x0028 →
      let left := signedAt r.bytes 4 4
      let right := signedAt r.bytes 8 4
      let ok : Prop := -64 ≤ left ∧ left ≤ 63 ∧ -64 ≤ right ∧ right ≤ 63
      (ok → exec (.setEyeTrim t) s =
        .next ({ s with now := t, ssu.requested := some ⟨left, right⟩ }.finishTaking).settle) ∧
      (¬ ok → exec (.setEyeTrim t) s = .next ({ s with now := t }.refuse r .badParam).settle))

/-! ### Motion (chapters 3 and 4) -/

/-- MOTION_START: refused BAD_PARAM, NO_LAYOUT or BUSY, the first that applies (R58); else motion is RUNNING from zero angles, the
rate in use is the lower of the commanded rate and the cap of the level in force, the stall timer starts, the configuration exchange
is begun, and publication begins again at sequence 1 with the exchange to be reset (R48, R50, R59, R76). -/
def Obligations.MotionStarts : Prop :=
  ∀ (t : Time) (s : State) (r : Record), (s.granted = s ∨ t = s.now) → s.hku.work = .taking r → r.code = 0x0030 →
    let decimation := fieldAt r.bytes 4 4
    let hz := fieldAt r.bytes 8 4
    let ok : Prop := 1 ≤ decimation ∧ decimation ≤ 8 ∧ (hz = 500 ∨ hz = 1000 ∨ hz = 2000)
    let cap := s.hku.settings.levels[s.pu.level].rate
    (¬ ok → exec (.motionStart t) s = .next ({ s with now := t }.refuse r .badParam).settle) ∧
    (ok → s.hku.layout = none → exec (.motionStart t) s = .next ({ s with now := t }.refuse r .noLayout).settle) ∧
    (ok → s.hku.layout ≠ none → s.mu.motion ≠ .off →
      exec (.motionStart t) s = .next ({ s with now := t }.refuse r .busy).settle) ∧
    (∀ rate : Rate, ok → rate.hz = hz → s.hku.layout ≠ none → s.mu.motion = .off → ∃ sensor : SensorPort,
      let inUse := if rate.hz ≤ cap.hz then rate else cap
      exec (.motionStart t) s = .next ({ s with
        now := t
        mu := { s.mu with
          motion := .running, angles := ⟨0, 0, 0⟩, remainders := ⟨0, 0, 0⟩, rates := ⟨0, 0, 0⟩, accel := ⟨0, 0, 0⟩,
          lastTime := t, commanded := rate, inUse := inUse, former := inUse, rateChanged := false, decimation := decimation,
          samples := 0, first := true, gathered := ⟨false, false, false⟩, stall := some t, sensor := sensor,
          pub := { s.mu.pub with
            nextSeq := some 1, history := [], pending := none, ringRestartDue := true,
            exchange := { s.mu.pub.exchange with resetDue := true, indicatorDue := false } } } }.finishTaking).settle ∧
      (s.mu.sensor.busy = none → s.mu.sensor.stopWaiting = false →
        sensor = { s.mu.sensor with busy := some (.config inUse), configWaiting := false }) ∧
      (s.mu.sensor.busy ≠ none → sensor = { s.mu.sensor with configWaiting := true }))

/-- MOTION_STOP: NOT_RUNNING in OFF; else motion is OFF, the stall timer stops, what publication had waiting is dropped, the history is
empty, and the stop exchange is begun, behind the exchange in progress, a read losing its sample; a motion access in service completes and
does no more (R48, R60, R77, log entry 16). A configuration that waits is kept (log entry 14), and so is what R60 does not name (log entry
56). SET_GYRO_BIAS: the bias becomes the three values, in every motion state (R61). -/
def Obligations.MotionStops : Prop :=
  ∀ (t : Time) (s : State) (r : Record), (s.granted = s ∨ t = s.now) → s.hku.work = .taking r →
    (r.code = 0x0031 → s.mu.motion = .off →
      exec (.motionStop t) s = .next ({ s with now := t }.refuse r .notRunning).settle) ∧
    (r.code = 0x0031 → s.mu.motion ≠ .off → ∃ (sensor : SensorPort) (port : Option Access),
      exec (.motionStop t) s = .next ({ s with
        now := t
        port := port
        mu := { s.mu with
          motion := .off, stall := none, gathered := ⟨false, false, false⟩, sensor := sensor,
          pub := { s.mu.pub with
            list := [], headGranted := false, headWritten := false, history := [], pending := none, ringRestartDue := false,
            exchange := { s.mu.pub.exchange with resetDue := false, indicatorDue := false } } } }.finishTaking).settle ∧
      (port = s.port.map fun a => if a.kind.client = .motion then { a with live := false } else a) ∧
      let cleared : SensorPort := { s.mu.sensor with rateWaiting := none, ready := none, stopWaiting := true }
      (s.mu.sensor.busy = none → sensor = { cleared with busy := some .stop, stopWaiting := false }) ∧
      (∀ at_ wanted, s.mu.sensor.busy = some (.read at_ wanted) →
        sensor = { cleared with busy := some (.read at_ false) }) ∧
      (∀ e, s.mu.sensor.busy = some e → (∀ at_ wanted, e ≠ .read at_ wanted) → sensor = cleared)) ∧
    (r.code = 0x0032 →
      exec (.setGyroBias t) s = .next ({ s with
        now := t
        mu.bias := ⟨halfAt r.bytes 4, halfAt r.bytes 6, halfAt r.bytes 8⟩ }.finishTaking).settle)

/-- SENSOR_READ_DONE for a wanted sample: R51 to R55. The rates are mapped, corrected by the bias and clamped; the interval is the
nominal period for the first sample, else the time since the last sample clamped to 1 to 10,000; the angles move by the floored
increments and the remainders carry the rest; motion is RUNNING. At a multiple of the decimation the record joins the publication list,
its flags in bit 0 of the accelerometer fields (R65, R179), a full list losing its oldest record whose writes are not under way (R66), and
the gathered flags are clear. The rate in use is reviewed, and a change begins a rate exchange (R48, R50); the port frees and its next
exchange begins (Obligations.SensorPortWorks). An unwanted sample is discarded (R60). -/
def Obligations.SampleIntegrated : Prop :=
  ∀ (t : Time) (s : State) (reading : SensorReading) (time : Time), s.granted = s →
    let m := s.mu
    let pick (source : Source) : Int := match source with
      | .x => reading.gyro.x.toInt
      | .y => reading.gyro.y.toInt
      | .z => reading.gyro.z.toInt
    let rate (a : AxisSource) (bias : Half) : Int :=
      max (-32768) (min 32767 ((if a.negative then -pick a.source else pick a.source) - bias.toInt))
    let yaw := rate s.hku.settings.axisMap.yaw m.bias.yaw
    let pitch := rate s.hku.settings.axisMap.pitch m.bias.pitch
    let roll := rate s.hku.settings.axisMap.roll m.bias.roll
    let d := (time - m.lastTime).toInt
    let dt : Int := if m.first then 1000000 / m.inUse.hz else max 1 (min 10000 d)
    let cap := s.hku.settings.levels[s.pu.level].rate
    let rateNow := if m.commanded.hz ≤ cap.hz then m.commanded else cap
    let period : Nat := if m.rateChanged then max (1000000 / m.inUse.hz) (1000000 / m.former.hz) else 1000000 / m.inUse.hz
    let gap : Bool := m.gathered.gap || (!m.first && decide (2 * (period : Int) < d))
    let limit (a : AxisSource) (bias : Half) : Bool := pick a.source == -32768 || pick a.source == 32767 ||
      rate a bias != (if a.negative then -pick a.source else pick a.source) - bias.toInt
    let saturated : Bool := m.gathered.saturated || limit s.hku.settings.axisMap.yaw m.bias.yaw ||
      limit s.hku.settings.axisMap.pitch m.bias.pitch || limit s.hku.settings.axisMap.roll m.bias.roll
    let afterStall : Bool := m.gathered.afterStall || m.motion == .stalled
    let flagged (v : Half) (flag : Bool) : Nat := v.toNat / 2 * 2 + (if flag then 1 else 0)
    (m.sensor.busy = some (.read time false) →
      exec (.sensorReadDone t reading) s = .next { s with
        now := t
        mu := { m with sensor.busy := none }.nextExchange }.settle) ∧
    (m.sensor.busy = some (.read time true) → ∃ u : State,
      exec (.sensorReadDone t reading) s = .next u.settle ∧
      u = { s with now := t, mu := u.mu, hku := u.hku } ∧
      (m.motion = .stalled → u.hku = s.hku.post t (.sensorResumed time)) ∧ (m.motion ≠ .stalled → u.hku = s.hku) ∧
      u.mu.motion = .running ∧
      u.mu.angles.yaw = m.angles.yaw + BitVec.ofInt 32 ((yaw * 4096 * dt + m.remainders.yaw) / 1000000) ∧
      u.mu.angles.pitch = m.angles.pitch + BitVec.ofInt 32 ((pitch * 4096 * dt + m.remainders.pitch) / 1000000) ∧
      u.mu.angles.roll = m.angles.roll + BitVec.ofInt 32 ((roll * 4096 * dt + m.remainders.roll) / 1000000) ∧
      (u.mu.remainders.yaw : Int) = (yaw * 4096 * dt + m.remainders.yaw) % 1000000 ∧
      (u.mu.remainders.pitch : Int) = (pitch * 4096 * dt + m.remainders.pitch) % 1000000 ∧
      (u.mu.remainders.roll : Int) = (roll * 4096 * dt + m.remainders.roll) % 1000000 ∧
      u.mu.rates.yaw.toInt = yaw ∧ u.mu.rates.pitch.toInt = pitch ∧ u.mu.rates.roll.toInt = roll ∧
      u.mu.accel = reading.accel ∧ u.mu.lastTime = time ∧ u.mu.samples = m.samples + 1 ∧ u.mu.first = false ∧
      u.mu.bias = m.bias ∧ u.mu.stall = m.stall ∧ u.mu.commanded = m.commanded ∧ u.mu.decimation = m.decimation ∧
      (rateNow = m.inUse → u.mu.inUse = m.inUse ∧ u.mu.former = m.former ∧ u.mu.rateChanged = false ∧
        u.mu.sensor = ({ m with sensor.busy := none }.nextExchange).sensor) ∧
      (rateNow ≠ m.inUse → u.mu.inUse = rateNow ∧ u.mu.former = m.inUse ∧ u.mu.rateChanged = true ∧
        u.mu.sensor =
          ({ m with inUse := rateNow, sensor.busy := none, sensor.rateWaiting := some rateNow }.nextExchange).sensor) ∧
      ((m.samples + 1) % m.decimation ≠ 0 → u.mu.pub = m.pub) ∧
      ((m.samples + 1) % m.decimation = 0 → m.pub.nextSeq = none → u.mu.pub = m.pub) ∧
      (∀ q, (m.samples + 1) % m.decimation = 0 → m.pub.nextSeq = some q → ∃ r : PoseRecord,
        let kept := if m.pub.list.length < 8 then m.pub.list
          else if m.pub.headGranted then m.pub.list.take 1 ++ m.pub.list.drop 2
          else m.pub.list.drop 1
        u.mu.pub = { m.pub with
          list := kept ++ [r]
          nextSeq := if q = 0xFFFFFFFF then none else some (q + 1) } ∧
        r.sequence = q ∧ r.time = time ∧ r.angles = u.mu.angles ∧ r.rates = u.mu.rates ∧
        r.accel.x.toNat = flagged reading.accel.x gap ∧ r.accel.y.toNat = flagged reading.accel.y saturated ∧
        r.accel.z.toNat = flagged reading.accel.z afterStall) ∧
      ((m.samples + 1) % m.decimation ≠ 0 → u.mu.gathered = ⟨gap, saturated, afterStall⟩) ∧
      ((m.samples + 1) % m.decimation = 0 → u.mu.gathered = ⟨false, false, false⟩))

/-- The sensor port: an idle port begins a waiting stop, else a waiting configuration, else a waiting rate, else the read of a pending
data-ready; a busy one does not (R48, R49). DATA_READY: ignored in OFF; else it starts the stall timer and is read, or pends in place
of an older one (R49). SENSOR_EXCHANGE_DONE frees the port. STALL_TIMER_EXPIRY: RUNNING becomes STALLED, with SENSOR_STALL (R56). -/
def Obligations.SensorPortWorks : Prop :=
  ∀ (t : Time) (s : State), s.granted = s →
    (∀ m : Mu,
      (m.sensor.busy ≠ none → m.nextExchange = m) ∧
      (m.sensor.busy = none → m.sensor.stopWaiting = true →
        m.nextExchange = { m with sensor.busy := some .stop, sensor.stopWaiting := false }) ∧
      (m.sensor.busy = none → m.sensor.stopWaiting = false → m.sensor.configWaiting = true →
        m.nextExchange = { m with sensor.busy := some (.config m.inUse), sensor.configWaiting := false }) ∧
      (∀ r, m.sensor.busy = none → m.sensor.stopWaiting = false → m.sensor.configWaiting = false →
        m.sensor.rateWaiting = some r →
        m.nextExchange = { m with sensor.busy := some (.rate r), sensor.rateWaiting := none }) ∧
      (∀ at_, m.sensor.busy = none → m.sensor.stopWaiting = false → m.sensor.configWaiting = false →
        m.sensor.rateWaiting = none → m.sensor.ready = some at_ →
        m.nextExchange = { m with sensor.busy := some (.read at_ true), sensor.ready := none })) ∧
    (s.mu.motion = .off → exec (.dataReady t) s = .next s) ∧
    (s.mu.motion ≠ .off →
      exec (.dataReady t) s = .next { s with
        now := t
        mu := { s.mu with stall := some t, sensor.ready := some t }.nextExchange }.settle) ∧
    (∀ rate, (s.mu.sensor.busy = some (.config rate) ∨ s.mu.sensor.busy = some (.rate rate)) →
      exec (.sensorExchangeDone t) s = .next { s with
        now := t
        mu := { s.mu with sensor.busy := none, sensor.setting := .measuring rate }.nextExchange }.settle) ∧
    (s.mu.sensor.busy = some .stop →
      exec (.sensorExchangeDone t) s = .next { s with
        now := t
        mu := { s.mu with sensor.busy := none, sensor.setting := .idle }.nextExchange }.settle) ∧
    (∀ start, s.mu.motion = .running → s.mu.stall = some start → t = start + 20000 →
      exec (.stallTimerExpiry t) s = .next ({ s with
        now := t
        mu := { s.mu with motion := .stalled, stall := none } }.post (.sensorStall start)).settle)

/-- MOTION_GRANT with the port free and no client of a higher priority waiting: the first item of R67 that is due, decided at the
grant; the exchange reset waits for the hold (R76), the record goes into the back (R73), the ring write to its position (R68). A pose
record is 32 bytes as section 11.7 lays it out (R65, R179), and the indicator word shows front, missed and front sequence (R74). -/
def Obligations.MotionGranted : Prop :=
  ∀ (t : Time) (s : State) (l : Layout), s.port = none → s.scanWaiting = none → s.au.waiting = [] → s.inboundWaiting = false →
    s.hku.layout = some l →
    let p := s.mu.pub
    let x := p.exchange
    let position (r : PoseRecord) : Nat := (r.sequence - 1).toNat % l.poseRing.size
    let reset : Prop := x.resetDue = true ∧ x.hold = false
    (reset → exec (.motionGrant t) s = .next { s with
      now := t
      mu.pub.exchange := ⟨.ex0, 0, 0, false, false, false, true⟩
      port := some ⟨.exchangeReset, 0x1C0, .write (List.replicate 64 (some 0)), true⟩ }.settle) ∧
    (¬ reset → p.ringRestartDue = true → exec (.motionGrant t) s = .next { s with
      now := t
      mu.pub.ringRestartDue := false
      port := some ⟨.ringRestart, 0x16C, .write (List.replicate 8 (some 0)), true⟩ }.settle) ∧
    (¬ reset → p.ringRestartDue = false → x.indicatorDue = true → exec (.motionGrant t) s = .next { s with
      now := t
      mu.pub.exchange.indicatorDue := false
      port := some ⟨.indicator, 0x154, .write ((leBytes 4 x.indicator).map some), true⟩ }.settle) ∧
    (∀ r, p.ringRestartDue = false → x.indicatorDue = false → x.resetDue = false → p.pending = some r →
      exec (.motionGrant t) s = .next { s with
        now := t
        mu.pub.pending := none
        port := match x.front with
          | .ex0 => some ⟨.exchangeRecord r .ex1, 0x1E0, .write (r.bytes.map some), true⟩
          | .ex1 => some ⟨.exchangeRecord r .ex0, 0x1C0, .write (r.bytes.map some), true⟩ }.settle) ∧
    (∀ r rest, ¬ reset → p.ringRestartDue = false → x.indicatorDue = false → (p.pending = none ∨ x.resetDue = true) →
      p.list = r :: rest →
      (p.headWritten = false → exec (.motionGrant t) s = .next { s with
        now := t
        mu.pub.headGranted := true
        port := some ⟨.ringRecord, l.poseRing.base + 32 * position r, .write (r.bytes.map some), true⟩ }.settle) ∧
      (p.headWritten = true → exec (.motionGrant t) s = .next { s with
        now := t
        port := some ⟨.ringControl r, 0x16C, .write ((leBytes 4 (position r) ++ leBytes 4 r.sequence.toNat).map some),
          true⟩ }.settle)) ∧
    (∀ r : PoseRecord, r.bytes.length = 32 ∧ wordAt r.bytes 0 = r.sequence ∧ wordAt r.bytes 4 = r.time ∧
      wordAt r.bytes 8 = r.angles.yaw ∧ wordAt r.bytes 12 = r.angles.pitch ∧ wordAt r.bytes 16 = r.angles.roll ∧
      halfAt r.bytes 20 = r.rates.yaw ∧ halfAt r.bytes 22 = r.rates.pitch ∧ halfAt r.bytes 24 = r.rates.roll ∧
      halfAt r.bytes 26 = r.accel.x ∧ halfAt r.bytes 28 = r.accel.y ∧ halfAt r.bytes 30 = r.accel.z) ∧
    (∀ y : PoseExchange, y.indicator =
      (if y.front = .ex0 then 0 else 1) + (if y.missed then 2 else 0) + 4 * (y.frontSeq.toNat % 1073741824))

/-- POSE_RING_WRITTEN: the record leaves the list, enters the history, which keeps the newest 64, posts the half and wrap notices
of its position, and becomes the pending exchange record (R68 to R70). EXCHANGE_RECORD_WRITE_DONE: with the hold clear the exchange
flips to the record written; with it set the flip is missed (R73). MOTION_ACCESS_DONE: after the record write comes the control word
write (R68). An access whose publication has been stopped only completes (R77). -/
def Obligations.MotionWritten : Prop :=
  ∀ (t : Time) (s : State) (a : Access) (l : Layout), s.port = some a → a.stop ≤ Config.dramSize → s.hku.layout = some l →
    let x := s.mu.pub.exchange
    (∀ r, a.kind = .ringControl r → a.live = true →
      let position := (r.sequence - 1).toNat % l.poseRing.size
      let half := if position = l.poseRing.size / 2 then (s.served t a).post (.poseRingHalf position r.sequence)
        else s.served t a
      let wrap := if position + 1 = l.poseRing.size then half.post (.poseRingWrap position r.sequence) else half
      exec (.poseRingWritten t) s = .next { wrap with
        mu.pub := { s.mu.pub with
          list := s.mu.pub.list.tail
          headGranted := false
          headWritten := false
          history := (if s.mu.pub.history.length < 64 then s.mu.pub.history else s.mu.pub.history.tail) ++ [r]
          pending := some r } }.settle) ∧
    (∀ r into, a.kind = .exchangeRecord r into → a.live = true → x.hold = false →
      exec (.exchangeRecordWriteDone t) s = .next { s.served t a with
        mu.pub.exchange := { x with
          front := into, frontSeq := r.sequence, backSeq := x.frontSeq, missed := false, indicatorDue := true } }.settle) ∧
    (∀ r into, a.kind = .exchangeRecord r into → a.live = true → x.hold = true →
      exec (.exchangeRecordWriteDone t) s = .next { s.served t a with
        mu.pub.exchange := { x with
          backSeq := r.sequence, missed := true, indicatorDue := x.indicatorDue || !x.missed } }.settle) ∧
    (a.kind = .ringRecord → a.live = true →
      exec (.motionAccessDone t) s = .next { s.served t a with mu.pub.headWritten := true }.settle) ∧
    ((a.kind = .exchangeReset ∨ a.kind = .ringRestart ∨ a.kind = .indicator) →
      exec (.motionAccessDone t) s = .next (s.served t a).settle) ∧
    (a.live = false → (∀ r, a.kind = .ringControl r → exec (.poseRingWritten t) s = .next (s.served t a).settle) ∧
      (∀ r into, a.kind = .exchangeRecord r into →
        exec (.exchangeRecordWriteDone t) s = .next (s.served t a).settle) ∧
      (a.kind = .ringRecord → exec (.motionAccessDone t) s = .next (s.served t a).settle))

/-! ### Frame boundaries, the late shift and scan-out (chapters 5 and 6) -/

/-- A boundary that chooses (R94, R97, R102), be it a FRAME_BOUNDARY or the ramp's end, from which the display runs with the panels at the
fill colour and without the status timer (R90, R175): the newest QUEUED slot becomes SHOWING with shown count 1, each older one FREE and
SKIPPED with its notice, the previous SHOWING slot FREE and SHOWN, the queue empty; an episode of lost content ends with CONTENT_RESUMED,
last; the notices are posted in that order. Requested trims and the lit duration are in force, and the console half is to be read; until
then the output stays (log entry 18). The last frame's scan-out is over, its access in service completes (R18, log entry 16), each panel
port completes that frame in the fill colour (R118, log entry 42) and begins a new one (R119, log entry 17). -/
def Obligations.BoundaryChooses : Prop :=
  ∀ (t : Time) (s : State) (older : List (Fin 4)) (k : Fin 4) (c : Instr), s.granted = s → s.SlotsOk →
    (c = .frameBoundary t ∧ (s.fcu.display = .blank ∨ s.fcu.display = .showing) ∧ s.fcu.boundary = some t ∨
      c = .rampTimerExpiry t ∧ s.fcu.display = .powering ∧ s.fcu.ramp = some t) → s.fcu.stopPending = false →
    s.fcu.queue = older ++ [k] → ∃ u : State,
    let ramp : Prop := s.fcu.display = .powering
    let begun (p : PanelPort) : PanelPort :=
      ⟨some ⟨[], 0, s.fcu.fill⟩, (p.frame.map fun f : PanelFrame =>
        (⟨f.pixels, s.hku.settings.panelWidth * s.hku.settings.panelHeight - f.pixels.length, s.fcu.fill⟩ : PanelFrame)).or
          p.ended⟩
    exec c s = .next u.settle ∧
    u = { s with now := t, port := u.port, fcu := u.fcu, ssu := u.ssu, hku := u.hku } ∧
    u.port = (s.port.map fun a => if a.kind.client = .scanOut then { a with live := false } else a) ∧
    u.fcu = { s.fcu with
      slots := u.fcu.slots, queue := [], display := .showing, contentLost := false,
      ramp := if ramp then none else s.fcu.ramp,
      boundary := some (t + BitVec.ofNat 32 s.hku.settings.framePeriod) } ∧
    u.fcu.slots[k] = { s.fcu.slots[k] with
      state := .showing, shown := 1, firstShown := t, half := none, headerDue := true } ∧
    (∀ j ∈ older, u.fcu.slots[j] = { s.fcu.slots[j] with
      state := .free, outcome := .skipped, half := none, headerDue := true }) ∧
    (∀ j : Fin 4, s.fcu.slots[j].state = .showing → u.fcu.slots[j] = { s.fcu.slots[j] with
      state := .free, outcome := .shown, half := none, headerDue := true }) ∧
    (∀ j : Fin 4, (s.fcu.slots[j].state = .free ∨ s.fcu.slots[j].state = .waiting) →
      u.fcu.slots[j] = s.fcu.slots[j]) ∧
    u.hku = (older.map (fun j => Notice.frameSkipped j s.fcu.slots[j].submitValue) ++
      (if s.fcu.contentLost then [Notice.contentResumed k s.fcu.slots[k].submitValue] else [])).foldl
        (fun (h : Hku) n => h.post t n)
        { s.hku with
          statusTimer := if ramp then none else s.hku.statusTimer
          counters := { s.hku.counters with
            skipped := s.hku.counters.skipped + BitVec.ofNat 32 older.length
            framesShown := s.hku.counters.framesShown + 1 } } ∧
    u.ssu = { s.ssu with
      boundaryTime := t
      lit := litDuration s.hku.settings s.fcu.litRequest (s.hku.settings.levels[s.pu.level]).lit
      trims := s.ssu.requested.getD s.ssu.trims
      requested := none
      output := if ramp then .fill else s.ssu.output
      chosen := some k
      rowsDue := 1
      scan := none
      litInterval := false
      left := begun s.ssu.left
      right := begun s.ssu.right }

/-- A boundary with an empty queue and a slot shown at or below the repeat limit repeats it (R95, R97, R102): shown count and counters
rise, REPEATED is set, the shift is computed afresh and replaces the slot's, and a new scan-out of its window begins. The last frame's
pixel read in service completes and is not sent (R18, log entry 16); each panel port completes that frame in the fill colour (R118, log
entry 42) and begins a new one (R119, log entry 17). -/
def Obligations.BoundaryRepeats : Prop :=
  ∀ (t : Time) (s : State) (k : Fin 4) (half : ConsoleHalf), s.granted = s → s.SlotsOk →
    s.fcu.display = .showing → s.fcu.boundary = some t → s.fcu.stopPending = false → s.fcu.queue = [] →
    s.fcu.slots[k].state = .showing → s.fcu.slots[k].half = some half →
    s.fcu.slots[k].shown ≤ s.fcu.repeatLimit → ∃ u : State,
    let begun (p : PanelPort) : PanelPort :=
      ⟨some ⟨[], 0, s.fcu.fill⟩, (p.frame.map fun f : PanelFrame =>
        (⟨f.pixels, s.hku.settings.panelWidth * s.hku.settings.panelHeight - f.pixels.length, s.fcu.fill⟩ : PanelFrame)).or
          p.ended⟩
    exec (.frameBoundary t) s = .next u.settle ∧
    u = { s with now := t, port := u.port, fcu := u.fcu, ssu := u.ssu, hku := u.hku } ∧
    u.port = (s.port.map fun a => if a.kind = .pixels .left ∨ a.kind = .pixels .right then { a with live := false } else a) ∧
    u.fcu = { s.fcu with
      slots := s.fcu.slots.set k { s.fcu.slots[k] with
        shown := s.fcu.slots[k].shown + 1
        flags := ⟨(u.results half).clampedX, (u.results half).clampedY, (u.results half).poseStale, true,
          (u.results half).noPose⟩
        shift := (u.results half).shift
        headerDue := true }
      boundary := some (t + BitVec.ofNat 32 s.hku.settings.framePeriod) } ∧
    (let counted := { s.hku with counters := { s.hku.counters with
       repeated := s.hku.counters.repeated + 1, framesShown := s.hku.counters.framesShown + 1 } }
     let noted := if (u.results half).poseStale = true ∧ s.ssu.stale = false then
         counted.post t (.poseStale k s.fcu.slots[k].submitValue half.poseSequence)
       else counted
     u.hku = { noted with statusDue := true }) ∧
    u.ssu = {
      boundaryTime := t
      lit := litDuration s.hku.settings s.fcu.litRequest (s.hku.settings.levels[s.pu.level]).lit
      trims := s.ssu.requested.getD s.ssu.trims
      requested := none
      results := u.results half
      stale := (u.results half).poseStale
      output := .image k
      chosen := none
      rowsDue := 1
      scan := some (Scan.start s.hku.settings (s.slotHeader k) k (u.results half).shift)
      litInterval := false
      left := begun s.ssu.left
      right := begun s.ssu.right }

/-- A boundary with an empty queue that shows no slot (R96, R102, R120): a slot shown more often than the repeat limit is FREE with
outcome SHOWN, with the counter, the episode and CONTENT_LOST; the display is BLANK, and each panel port begins a frame of which every
pixel is of the fill colour (log entry 17). The ramp's end is a boundary of its own: the display is BLANK from it, and the status timer
stops (R90, R175). The last frame's scan-out is over, its access in service completes (R18, log entry 16), and each panel port completes
that frame in the fill colour (R118, log entry 42). -/
def Obligations.BoundaryBlanks : Prop :=
  ∀ (t : Time) (s : State), s.granted = s → s.SlotsOk → s.fcu.stopPending = false → s.fcu.queue = [] →
    let next := some (t + BitVec.ofNat 32 s.hku.settings.framePeriod)
    let size := s.hku.settings.panelWidth * s.hku.settings.panelHeight
    let begun (p : PanelPort) : PanelPort :=
      ⟨some ⟨[], size, s.fcu.fill⟩, (p.frame.map fun f : PanelFrame =>
        (⟨f.pixels, size - f.pixels.length, s.fcu.fill⟩ : PanelFrame)).or p.ended⟩
    let port : Option Access := s.port.map fun a => if a.kind.client = .scanOut then { a with live := false } else a
    let filled : Ssu := { s.ssu with
      boundaryTime := t
      lit := litDuration s.hku.settings s.fcu.litRequest (s.hku.settings.levels[s.pu.level]).lit
      trims := s.ssu.requested.getD s.ssu.trims
      requested := none
      output := .fill
      chosen := none
      rowsDue := 0
      scan := none
      litInterval := false
      left := begun s.ssu.left
      right := begun s.ssu.right }
    (s.fcu.display = .blank → s.fcu.boundary = some t →
      exec (.frameBoundary t) s = .next { s with
        now := t, port := port, fcu.boundary := next, ssu := filled, hku.statusDue := true }.settle) ∧
    (s.fcu.display = .powering → s.fcu.ramp = some t →
      exec (.rampTimerExpiry t) s = .next { s with
        now := t
        port := port
        fcu := { s.fcu with display := .blank, ramp := none, boundary := next }
        ssu := filled
        hku := { s.hku with statusDue := true, statusTimer := none } }.settle) ∧
    (∀ k : Fin 4, s.fcu.display = .showing → s.fcu.boundary = some t → s.fcu.slots[k].state = .showing →
      s.fcu.repeatLimit < s.fcu.slots[k].shown →
      exec (.frameBoundary t) s = .next { s with
        now := t
        port := port
        fcu := { s.fcu with
          slots := s.fcu.slots.set k { s.fcu.slots[k] with
            state := .free, outcome := .shown, half := none, headerDue := true }
          display := .blank
          contentLost := true
          boundary := next }
        ssu := filled
        hku := { ({ s.hku with counters.contentLost := s.hku.counters.contentLost + 1 }).post t
            (.contentLost k s.fcu.slots[k].shown) with statusDue := true } }.settle)

/-- A boundary with stop_pending set stops the display before any choice (R93, R102): the SHOWING slot is FREE with SHOWN, every QUEUED
and WAITING one FREE with FLUSHED and its copy-pending count kept; the rail is OFF, the panels dark, the status timer runs again, and
DISPLAY_STOPPED says how many slots were flushed. The last frame's scan-out is over, its access in service completes (R18, log entry
16), and each panel port completes that frame in the fill colour (R118, log entries 42 and 54) and begins none. -/
def Obligations.BoundaryStops : Prop :=
  ∀ (t : Time) (s : State), s.granted = s → (s.fcu.display = .blank ∨ s.fcu.display = .showing) → s.fcu.boundary = some t →
    s.fcu.stopPending = true → ∃ u : State,
    let flushed := [0, 1, 2, 3].countP fun k : Fin 4 =>
      s.fcu.slots[k].state == .queued || s.fcu.slots[k].state == .waiting
    let ended (p : PanelPort) : PanelPort :=
      ⟨none, (p.frame.map fun f : PanelFrame =>
        (⟨f.pixels, s.hku.settings.panelWidth * s.hku.settings.panelHeight - f.pixels.length, s.fcu.fill⟩ : PanelFrame)).or
          p.ended⟩
    exec (.frameBoundary t) s = .next u.settle ∧
    u = { s with
      now := t
      port := s.port.map fun a => if a.kind.client = .scanOut then { a with live := false } else a
      fcu := u.fcu
      ssu := { s.ssu with
        boundaryTime := t, lit := 0, output := .dark, stale := false, chosen := none, rowsDue := 0, scan := none,
        litInterval := false, left := ended s.ssu.left, right := ended s.ssu.right }
      pu.rail := false
      hku := { s.hku with statusDue := true, statusTimer := some (t + 10000) }.post t (.displayStopped .boundary flushed) } ∧
    u.fcu = { s.fcu with
      slots := u.fcu.slots, queue := [], display := .off, stopPending := false, contentLost := false, boundary := none } ∧
    (∀ k : Fin 4,
      (s.fcu.slots[k].state = .free → u.fcu.slots[k] = s.fcu.slots[k]) ∧
      (s.fcu.slots[k].state = .showing → u.fcu.slots[k] = { s.fcu.slots[k] with
        state := .free, outcome := .shown, half := none, headerDue := true }) ∧
      ((s.fcu.slots[k].state = .queued ∨ s.fcu.slots[k].state = .waiting) → u.fcu.slots[k] = { s.fcu.slots[k] with
        state := .free, outcome := .flushed, half := none, headerDue := true }))

/-- The shift results of a showing (R105 to R112): without a pose or with NO_SHIFT the rotation shift is 0; with a lookup or a
prediction that fails it is 0 and POSE_STALE is set; else it is formed from the angle differences to the prediction at the middle of the
lit interval. The trims are added and every shift is clamped to the guard band, which the flags report. A prediction carries the motion
state; its angles are those of the last sample moved at the last rates for 0 to 50,000 microseconds, unmoved in STALLED, none in OFF (R62,
R63). -/
def Obligations.ShiftComputed : Prop :=
  (∀ (m : Mu) (target : Time),
    let dt : Int := max 0 (min 50000 (target - m.lastTime).toInt)
    let moved (angle : Word) (rate : Half) : Word := angle + BitVec.ofInt 32 (rate.toInt * 4096 * dt / 1000000)
    (m.predict target).motion = m.motion ∧
    (m.motion = .off → (m.predict target).angles = none) ∧
    (m.motion = .stalled → (m.predict target).angles = some m.angles) ∧
    (m.motion = .running → (m.predict target).angles = some
      ⟨moved m.angles.yaw m.rates.yaw, moved m.angles.pitch m.rates.pitch, moved m.angles.roll m.rates.roll⟩)) ∧
  ∀ (s : State) (half : ConsoleHalf),
    let c := s.hku.settings
    let gx : Int := c.guardX
    let gy : Int := c.guardY
    let target := s.ssu.boundaryTime + BitVec.ofNat 32 (c.litOffset + s.ssu.lit / 2)
    let band (v g : Int) : Int := max (-g) (min g v)
    let answer (sx sy : Int) (stale noPose : Bool) : ShiftResults :=
      { shift := ⟨band (sx + s.ssu.trims.left) gx, band (sx + s.ssu.trims.right) gx, band sy gy⟩
        clampedX := band (sx + s.ssu.trims.left) gx != sx + s.ssu.trims.left ||
          band (sx + s.ssu.trims.right) gx != sx + s.ssu.trims.right
        clampedY := band sy gy != sy
        poseStale := stale
        noPose := noPose }
    let turn (predicted render : Word) : Int := max (-4194304) (min 4194304 (predicted - render).toInt)
    (half.poseSequence = 0 → s.results half = answer 0 0 false true) ∧
    (half.poseSequence ≠ 0 → half.noShift = true → s.results half = answer 0 0 false false) ∧
    (half.poseSequence ≠ 0 → half.noShift = false →
      ((∀ r ∈ s.mu.pub.history, r.sequence ≠ half.poseSequence) ∨ s.mu.motion = .off) →
      s.results half = answer 0 0 true false) ∧
    (∀ (r : PoseRecord) (p : Axes Word), half.poseSequence ≠ 0 → half.noShift = false →
      s.mu.pub.history.find? (fun r => r.sequence == half.poseSequence) = some r →
      (s.mu.predict target).angles = some p →
      s.results half = answer (-roundDiv (turn p.yaw r.angles.yaw * c.kx) 16777216)
        (-roundDiv (turn p.pitch r.angles.pitch * c.ky) 16777216) false false)

/-- CONSOLE_HALF_READ_DONE: the slot holds its frame number, pose sequence and NO_SHIFT (R85), the shift results go to its record and
are in force (R113), the output is the slot's picture, the scan-out of its window begins (R116), and a status block write is due (R175). A
stale showing outside an episode posts POSE_STALE with the boundary time (R108). -/
def Obligations.SlotShown : Prop :=
  ∀ (t : Time) (s : State) (a : Access) (k : Fin 4), s.port = some a → a.stop ≤ Config.dramSize → a.kind = .consoleHalf k →
    let bytes := a.fetch s.mem
    let half : ConsoleHalf := ⟨wordAt bytes 0, wordAt bytes 4, fieldAt bytes 8 1 % 2 == 1⟩
    let r := s.results half
    let c := s.hku.settings
    let noted := if r.poseStale = true ∧ s.ssu.stale = false then
        s.hku.post s.ssu.boundaryTime (.poseStale k s.fcu.slots[k].submitValue half.poseSequence)
      else s.hku
    (a.live = true → exec (.consoleHalfReadDone t) s = .next { s.served t a with
      fcu := { s.fcu with slots := s.fcu.slots.set k { s.fcu.slots[k] with
        half := some half
        flags := ⟨r.clampedX, r.clampedY, r.poseStale, s.fcu.slots[k].flags.repeated, r.noPose⟩
        shift := r.shift
        headerDue := true } }
      ssu := { s.ssu with
        results := r
        stale := r.poseStale
        output := .image k
        chosen := none
        scan := some
          { slot := k, base := s.slotHeader k, columnLeft := (c.guardX + r.shift.left).toNat,
            columnRight := (c.guardX + r.shift.right).toNat, originRow := (c.guardY + r.shift.vertical).toNat, row := 0,
            eye := .left, done := 0 } }
      hku := { noted with statusDue := true } }.settle) ∧
    (a.live = false → exec (.consoleHalfReadDone t) s = .next (s.served t a).settle)

/-- SCAN_ROW_DUE at the read time of the next row makes it due. What scan-out has waiting is the console half of a chosen slot (R85), else
the next read of a row that is due: the window row of the eye in its source row, cut into reads of 256 bytes and a rest (R116, R117).
SCAN_ACCESS_DONE sends the pixels read to the panel port of their eye, red, green and blue of every four bytes, the fourth ignored
(section 11.7), and goes on in the row, to the right eye's, to the next row, or ends after the last (R117, R119); those of a frame that is
over are not sent (log entry 16). The lit interval runs from the boundary time plus lit_offset for the lit duration (R104, log entry 32).
-/
def Obligations.ScanOutRuns : Prop :=
  (∀ (r g b x : Byte) (rest : List Byte), pixelsOf (r :: g :: b :: x :: rest) = ⟨r, g, b⟩ :: pixelsOf rest) ∧
  pixelsOf [] = [] ∧
  ∀ (t : Time) (s : State),
    let c := s.hku.settings
    let width := c.panelWidth + 2 * c.guardX
    let sent (p : PanelPort) (px : List Rgb) : PanelPort :=
      { p with frame := p.frame.map fun f : PanelFrame => { f with pixels := f.pixels ++ px } }
    (∀ n : Scan, n.access c =
      ⟨.pixels n.eye,
        n.base + 64 + (n.originRow + n.row) * (8 * width) +
          (if n.eye = Eye.left then 4 * n.columnLeft else 4 * width + 4 * n.columnRight) + n.done,
        .read (min 256 (c.panelWidth * 4 - n.done)), true⟩) ∧
    (∀ k l, s.ssu.chosen = some k → s.hku.layout = some l →
      s.scanWaiting = some ⟨.consoleHalf k, l.frameArea.base + k.val * l.frameArea.size, .read 32, true⟩) ∧
    (∀ n, s.ssu.chosen = none → s.ssu.scan = some n →
      s.scanWaiting = if n.row < s.ssu.rowsDue then some (n.access c) else none) ∧
    (s.ssu.chosen = none → s.ssu.scan = none → s.scanWaiting = none) ∧
    (s.granted = s → (s.ssu.chosen ≠ none ∨ s.ssu.scan ≠ none) → s.ssu.rowsDue < c.panelHeight →
      t = s.ssu.boundaryTime + BitVec.ofNat 32 (s.ssu.rowsDue * c.framePeriod / c.panelHeight) →
      exec (.scanRowDue t) s = .next { s with now := t, ssu.rowsDue := s.ssu.rowsDue + 1 }.settle) ∧
    (∀ (a : Access) (n : Scan) (len : Nat), s.port = some a → a.stop ≤ Config.dramSize → a.live = true →
      s.ssu.scan = some n → a.transfer = .read len → a.kind = .pixels n.eye →
      let after : Option Scan :=
        if n.done + len < c.panelWidth * 4 then some { n with done := n.done + len }
        else if n.eye = Eye.left then some { n with eye := .right, done := 0 }
        else if n.row + 1 < c.panelHeight then some { n with row := n.row + 1, eye := .left, done := 0 }
        else none
      let px := pixelsOf (a.fetch s.mem)
      exec (.scanAccessDone t) s = .next { s.served t a with
        ssu := { s.ssu with
          scan := after
          left := if n.eye = Eye.left then sent s.ssu.left px else s.ssu.left
          right := if n.eye = Eye.right then sent s.ssu.right px else s.ssu.right } }.settle) ∧
    (∀ (a : Access) (eye : Eye), s.port = some a → a.stop ≤ Config.dramSize → a.live = false → a.kind = .pixels eye →
      exec (.scanAccessDone t) s = .next (s.served t a).settle) ∧
    (s.granted = s → 0 < s.ssu.lit → s.ssu.litInterval = false → t = s.ssu.boundaryTime + BitVec.ofNat 32 c.litOffset →
      exec (.litIntervalStart t) s = .next { s with now := t, ssu.litInterval := true }.settle) ∧
    (s.granted = s → s.ssu.litInterval = true → t = s.ssu.boundaryTime + BitVec.ofNat 32 (c.litOffset + s.ssu.lit) →
      exec (.litIntervalEnd t) s = .next { s with now := t, ssu.litInterval := false }.settle)

/-! ### Copy jobs (chapter 7) -/

/-- COPY and FILL: refused BAD_PARAM, QUEUE_FULL, PROTECTED or TARGET_BUSY, the first that applies; else the job joins the tail with its
latched parameters and direction, and the copy-pending count of each slot its destination overlaps rises by one (R125 to R128). A
destination overlaps a slot when its extent, the bytes between rows included, shares a byte with the slot (R31, R125, R127). -/
def Obligations.JobsTaken : Prop :=
  (∀ (s : State) (j : Job),
    let size := (64 + (s.hku.settings.panelHeight + 2 * s.hku.settings.guardY) * 8 *
      (s.hku.settings.panelWidth + 2 * s.hku.settings.guardX) + 255) / 256 * 256
    (s.destSlots j).Pairwise (· < ·) ∧
    (s.hku.layout = none → s.destSlots j = []) ∧
    (∀ l, s.hku.layout = some l → ∀ k : Fin 4,
      let base := l.frameArea.base + k.val * l.frameArea.size
      (k ∈ s.destSlots j ↔ ∃ a, (j.dest ≤ a ∧ a < j.dest + ((j.rows - 1) * j.destStride + j.rowBytes)) ∧
        base ≤ a ∧ a < base + size))) ∧
  ∀ (t : Time) (s : State) (r : Record), (s.granted = s ∨ t = s.now) → s.hku.work = .taking r →
    let p (off : Nat) : Nat := fieldAt r.bytes off 4
    let row (dest len rows stride : Nat) : Prop :=
      dest % 4 = 0 ∧ len % 4 = 0 ∧ stride % 4 = 0 ∧ 4 ≤ len ∧ len ≤ 65536 ∧ 1 ≤ rows ∧ rows ≤ 4096 ∧ len ≤ stride ∧
        dest + ((rows - 1) * stride + len) ≤ 0x20000000
    let taken (c : Instr) (ok : Prop) (j : Job) : Prop :=
      (¬ ok → exec c s = .next ({ s with now := t }.refuse r .badParam).settle) ∧
      (ok → 4 ≤ s.ce.jobs.length → exec c s = .next ({ s with now := t }.refuse r .queueFull).settle) ∧
      (ok → s.ce.jobs.length < 4 → s.destProtected j = true →
        exec c s = .next ({ s with now := t }.refuse r .protectedRange).settle) ∧
      (ok → s.ce.jobs.length < 4 → s.destProtected j = false →
        (∃ k ∈ s.destSlots j, s.fcu.slots[k].state ≠ .free) →
        exec c s = .next ({ s with now := t }.refuse r .targetBusy).settle) ∧
      (ok → s.ce.jobs.length < 4 → s.destProtected j = false → (∀ k ∈ s.destSlots j, s.fcu.slots[k].state = .free) →
        ∃ slots : Vector Slot 4,
          exec c s = .next ({ s with
            now := t
            fcu.slots := slots
            ce := { s.ce with
              jobs := s.ce.jobs ++ [{ j with marks := s.destSlots j }]
              progress := if s.ce.jobs = [] then ⟨0, 0, none, 0⟩ else s.ce.progress } }.finishTaking).settle ∧
          ∀ k : Fin 4, slots[k] = { s.fcu.slots[k] with
            copyPending := s.fcu.slots[k].copyPending + (if k ∈ s.destSlots j then 1 else 0) })
    (r.code = 0x0050 → taken (.copy t)
      (row (p 8) (p 12) (p 16) (p 24) ∧ row (p 4) (p 12) (p 16) (p 20))
      { tag := r.tag, kind := .copy, source := p 4, dest := p 8, rowBytes := p 12, rows := p 16, sourceStride := p 20,
        destStride := p 24, pattern := 0,
        descending := decide (p 4 < p 8 ∧ p 8 < p 4 + ((p 16 - 1) * p 20 + p 12)), marks := [], aborting := false }) ∧
    (r.code = 0x0051 → taken (.fill t) (row (p 4) (p 8) (p 12) (p 16))
      { tag := r.tag, kind := .fill, source := 0, dest := p 4, rowBytes := p 8, rows := p 12, sourceStride := 0,
        destStride := p 16, pattern := BitVec.ofNat 32 (p 20), descending := false, marks := [], aborting := false })

/-- A byte is part-owned exactly when it lies in a refused piece of the Anchor Block (R21), in the pose ring or the capture ring (R22), in
the part half of a slot header, or in a slot that is not FREE (R81). The watched words and their addresses are those of R24, the submit
words with a layout only; a WRITE covers those that lie whole in it and land, in ascending order of address. A destination is protected
exactly when its extent holds a byte of those pieces, of the two rings or of a part half, whatever state the slots are in (R126). -/
def Obligations.ProtectedDestination : Prop :=
  let pieces : List (Nat × Nat) := [(0x000, 64), (0x040, 192), (0x144, 4), (0x148, 4), (0x154, 4), (0x15C, 4), (0x160, 4),
    (0x16C, 4), (0x170, 4), (0x1C0, 64), (0x200, 512), (0x800, 1024)]
  (∀ (s : State) (a : Nat),
    let slotSize := (64 + (s.hku.settings.panelHeight + 2 * s.hku.settings.guardY) * 8 *
      (s.hku.settings.panelWidth + 2 * s.hku.settings.guardX) + 255) / 256 * 256
    (s.partOwned a = true ↔
      (∃ p ∈ pieces, p.1 ≤ a ∧ a < p.1 + p.2) ∨
      ∃ l, s.hku.layout = some l ∧
        ((l.poseRing.base ≤ a ∧ a < l.poseRing.base + 32 * l.poseRing.size) ∨
          (l.capture.base ≤ a ∧ a < l.capture.base + 208 * l.capture.size) ∨
          ∃ k : Fin 4,
            let base := l.frameArea.base + k.val * l.frameArea.size
            (base + 32 ≤ a ∧ a < base + 64) ∨ (s.fcu.slots[k].state ≠ .free ∧ base ≤ a ∧ a < base + slotSize)))) ∧
  (∀ s : State,
    let fixed : List (Watched × Nat) := [(.commandProducer, 0x140), (.noticeConsumer, 0x14C), (.poseHold, 0x150),
      (.playbackProducer, 0x158), (.captureConsumer, 0x164), (.cueRequest, 0x168)]
    (s.hku.layout = none → s.watchedWords = fixed) ∧
    (∀ l, s.hku.layout = some l → s.watchedWords = fixed ++
      [0, 1, 2, 3].map fun k : Fin 4 => (.submit k, l.frameArea.base + k.val * l.frameArea.size + 28)) ∧
    (∀ addr len, (s.covered addr len).Sublist s.watchedWords) ∧
    (∀ addr len w, w ∈ s.covered addr len ↔
      w ∈ s.watchedWords ∧ addr ≤ w.2 ∧ w.2 + 4 ≤ addr + len ∧ s.partOwned w.2 = false) ∧
    ((∀ l, s.hku.layout = some l → 0x1000 ≤ l.frameArea.base ∧ 0 < l.frameArea.size) →
      s.watchedWords.Pairwise fun v w => v.2 < w.2)) ∧
  ∀ (s : State) (j : Job),
    (s.destProtected j = true ↔
      ∃ a, (j.dest ≤ a ∧ a < j.dest + ((j.rows - 1) * j.destStride + j.rowBytes)) ∧
        ((∃ p ∈ pieces, p.1 ≤ a ∧ a < p.1 + p.2) ∨
          ∃ l, s.hku.layout = some l ∧
            ((l.poseRing.base ≤ a ∧ a < l.poseRing.base + 32 * l.poseRing.size) ∨
              (l.capture.base ≤ a ∧ a < l.capture.base + 208 * l.capture.size) ∨
              ∃ k : Fin 4,
                let base := l.frameArea.base + k.val * l.frameArea.size
                base + 32 ≤ a ∧ a < base + 64)))

/-- ABORT_COPY finds the oldest job with the tag that is not aborting. One behind the running job is removed with nothing written; the
running one ends at once, or with an access in service is marked aborting; a job that ends releases its marks and posts COPY_DONE (R132,
R133). None found is NO_SUCH_JOB. A release lowers the count, and a WAITING slot whose count reaches 0 joins the queue (R83). -/
def Obligations.JobAborted : Prop :=
  ∀ (t : Time) (s : State) (r : Record), (s.granted = s ∨ t = s.now) → s.hku.work = .taking r → r.code = 0x0052 →
    let tag := halfAt r.bytes 4
    let inService : Prop := ∃ a, s.port = some a ∧ a.live = true ∧ a.kind.client = .copy
    let closed (j : Job) (n : Nat) : State :=
      { s with now := t, fcu := j.marks.foldl Fcu.release s.fcu }.post (.copyDone j.kind .aborted j.tag n)
    ((∀ j ∈ s.ce.jobs, j.tag ≠ tag ∨ j.aborting = true) →
      exec (.abortCopy t) s = .next ({ s with now := t }.refuse r .noSuchJob).settle) ∧
    (∀ ahead j behind, s.ce.jobs = ahead ++ j :: behind → (∀ x ∈ ahead, x.tag ≠ tag ∨ x.aborting = true) →
      j.tag = tag → j.aborting = false →
      (ahead ≠ [] →
        exec (.abortCopy t) s = .next ({ closed j 0 with ce.jobs := ahead ++ behind }.finishTaking).settle) ∧
      (ahead = [] → inService →
        exec (.abortCopy t) s = .next ({ s with
          now := t
          ce.jobs := { j with aborting := true } :: behind }.finishTaking).settle) ∧
      (ahead = [] → ¬ inService →
        exec (.abortCopy t) s = .next ({ closed j s.ce.progress.written with
          ce.jobs := behind, ce.progress := ⟨0, 0, none, 0⟩ }.finishTaking).settle)) ∧
    (∀ (f : Fcu) (k : Fin 4),
      let count := f.slots[k].copyPending - 1
      (f.slots[k].state = .waiting → count = 0 → f.release k = { f with
        slots := f.slots.set k { f.slots[k] with copyPending := count, state := .queued, headerDue := true }
        queue := f.queue ++ [k] }) ∧
      ((f.slots[k].state ≠ .waiting ∨ count ≠ 0) → f.release k = { f with
        slots := f.slots.set k { f.slots[k] with copyPending := count } }))

/-- COPY_GRANT with every other client idle and the job neither paused nor aborting makes the access its progress calls for: the held
segment's write, the next segment's read, or a FILL's next write, 256 bytes or the rest of the row (R128 to R130); paused or aborting, it
makes none (R130, R131). COPY_READ_DONE holds the segment. COPY_WRITE_DONE counts it; the last one ends the job COMPLETE, and an
aborting job ends ABORTED (R129, R132, R133). With no job COPY_GRANT makes no access (R130). An access whose job RESTART has ended only
completes (R42, R124, log entry 16). -/
def Obligations.JobRuns : Prop :=
  (∀ (t : Time) (s : State) (j : Job) (rest : List Job), s.ce.jobs = j :: rest →
    let p := s.ce.progress
    let len := min 256 (j.rowBytes - p.bytesDone)
    let at_ (stride : Nat) : Nat :=
      if j.descending then (j.rows - 1 - p.rowsDone) * stride + (j.rowBytes - p.bytesDone - len)
      else p.rowsDone * stride + p.bytesDone
    let ended (u : State) (o : JobOutcome) (n : Nat) : State :=
      { { u with fcu := j.marks.foldl Fcu.release u.fcu }.post (.copyDone j.kind o j.tag n) with
        ce := { s.ce with jobs := rest, progress := ⟨0, 0, none, 0⟩ } }
    (s.copyMayGo = true → s.ce.paused = false → j.aborting = false →
      (j.kind = .copy → p.held = none → exec (.copyGrant t) s = .next { s with
        now := t
        port := some ⟨.copyRead, j.source + at_ j.sourceStride, .read len, true⟩ }.settle) ∧
      (∀ bytes, j.kind = .copy → p.held = some bytes → exec (.copyGrant t) s = .next { s with
        now := t
        port := some ⟨.copyWrite, j.dest + at_ j.destStride, .write (bytes.map some), true⟩ }.settle) ∧
      (j.kind = .fill → exec (.copyGrant t) s = .next { s with
        now := t
        port := some ⟨.copyWrite, j.dest + at_ j.destStride,
          .write ((List.replicate (len / 4) (leBytes 4 j.pattern.toNat)).flatten.map some), true⟩ }.settle)) ∧
    (s.copyMayGo = true → (s.ce.paused = true ∨ j.aborting = true) →
      exec (.copyGrant t) s = .next { s with now := t }.settle) ∧
    (∀ a, s.port = some a → a.stop ≤ Config.dramSize → a.live = true → a.kind = .copyRead →
      (j.aborting = false → exec (.copyReadDone t) s = .next { s.served t a with
        ce.progress := { p with held := some (a.fetch s.mem) } }.settle) ∧
      (j.aborting = true → exec (.copyReadDone t) s = .next (ended (s.served t a) .aborted p.written).settle)) ∧
    (∀ a n, s.port = some a → a.stop ≤ Config.dramSize → a.live = true → a.kind = .copyWrite → a.transfer.length = n →
      let within : Prop := p.bytesDone + n < j.rowBytes
      let after : Progress := if p.bytesDone + n < j.rowBytes then ⟨p.rowsDone, p.bytesDone + n, none, p.written + n⟩
        else ⟨p.rowsDone + 1, 0, none, p.written + n⟩
      (j.aborting = false → (within → p.rowsDone < j.rows) → (¬ within → p.rowsDone + 1 < j.rows) →
        exec (.copyWriteDone t) s = .next { s.served t a with ce.progress := after }.settle) ∧
      (j.aborting = false → ¬ within → p.rowsDone + 1 = j.rows →
        exec (.copyWriteDone t) s = .next (ended (s.served t a) .complete (p.written + n)).settle) ∧
      (j.aborting = true →
        exec (.copyWriteDone t) s = .next (ended (s.served t a) .aborted (p.written + n)).settle))) ∧
  (∀ (t : Time) (s : State), s.copyMayGo = true → s.ce.jobs = [] → exec (.copyGrant t) s = .next { s with now := t }.settle) ∧
  ∀ (t : Time) (s : State) (a : Access), s.port = some a → a.stop ≤ Config.dramSize → a.live = false →
    (a.kind = .copyRead → exec (.copyReadDone t) s = .next (s.served t a).settle) ∧
    (a.kind = .copyWrite → exec (.copyWriteDone t) s = .next (s.served t a).settle)

/-! ### Audio (chapter 8) -/

/-- PLAYBACK_START: BAD_PARAM, NO_LAYOUT or BUSY, else PRIMING from the latest producer, its threshold limited to the ring (R140).
PLAYBACK_STOP and CAPTURE_STOP: NOT_RUNNING, else a stop request (R141, R153). SET_VOLUME: BAD_PARAM above 32768, else the requested
volume (R152). CAPTURE_START: NO_LAYOUT or BUSY, else RUNNING from sequence 1 (R153). -/
def Obligations.AudioCommands : Prop :=
  ∀ (t : Time) (s : State) (r : Record), (s.granted = s ∨ t = s.now) → s.hku.work = .taking r →
    let p (off : Nat) : Nat := fieldAt r.bytes off 4
    let refused (x : Reason) : Host.Outcome State Fault Refusal := .next ({ s with now := t }.refuse r x).settle
    (r.code = 0x0040 →
      let ok : Prop := 1 ≤ p 4 ∧ p 4 ≤ 64 ∧ p 8 ≤ 32768
      (¬ ok → exec (.playbackStart t) s = refused .badParam) ∧
      (ok → s.hku.layout = none → exec (.playbackStart t) s = refused .noLayout) ∧
      (ok → s.hku.layout ≠ none → s.au.playback ≠ .stopped → exec (.playbackStart t) s = refused .busy) ∧
      (∀ l, ok → s.hku.layout = some l → s.au.playback = .stopped →
        exec (.playbackStart t) s = .next ({ s with
          now := t
          au := { s.au with
            threshold := min (p 4) (l.playback.size / 48)
            requestedVolume := some (p 8)
            consumer := s.au.producer
            waiting := s.au.waiting ++ [(⟨.playConsumer, false, false⟩ : AudioAccess)]
            playback := .priming } }.finishTaking).settle)) ∧
    (r.code = 0x0041 →
      (s.au.playback = .stopped → exec (.playbackStop t) s = refused .notRunning) ∧
      (s.au.playback ≠ .stopped →
        exec (.playbackStop t) s = .next ({ s with now := t, au.playbackStop := true }.finishTaking).settle)) ∧
    (r.code = 0x0042 →
      (32768 < p 4 → exec (.setVolume t) s = refused .badParam) ∧
      (p 4 ≤ 32768 →
        exec (.setVolume t) s = .next ({ s with now := t, au.requestedVolume := some (p 4) }.finishTaking).settle)) ∧
    (r.code = 0x0043 →
      (s.hku.layout = none → exec (.captureStart t) s = refused .noLayout) ∧
      (s.hku.layout ≠ none → s.au.capturing = true → exec (.captureStart t) s = refused .busy) ∧
      (s.hku.layout ≠ none → s.au.capturing = false →
        exec (.captureStart t) s = .next ({ s with
          now := t
          au := { s.au with capturing := true, captureSeq := 1 } }.finishTaking).settle)) ∧
    (r.code = 0x0044 →
      (s.au.capturing = false → exec (.captureStop t) s = refused .notRunning) ∧
      (s.au.capturing = true →
        exec (.captureStop t) s = .next ({ s with now := t, au.captureStop := true }.finishTaking).settle))

/-- BLOCK_BOUNDARY (R137, R138, R142 to R145, R148, R149, R151, R153 to R155), with a layout or without: the playback state and consumer
count, corrected by an overrun, a starved block's underrun; the cue that ends, plays on or starts; the volume and gain; the capture block
recorded or dropped. The accesses they call for, and no others, stand behind those that wait, in the order cue, playback, capture; those of
the block that is over are late (R138, log entry 20). The notices are PLAYBACK_OVERRUN, PLAYBACK_STARVED, CUE_DONE, CAPTURE_OVERFLOW, in
this order. A playback block is read in runs at consecutive addresses, one run when neither ring end nor wrap falls inside it (R144). A
capture record is 208 bytes as section 11.7 lays it out (R154). Everything else is as it was. A boundary waits for the 48 frames of the block
in gathering, log entry 22; while a cue's table entry is read no other cue starts, log entry 20; an overflow episode ends at the boundary
that records a block, log entry 50. -/
def Obligations.BlockBoundarySettles : Prop :=
  (∀ (t : Time) (s : State), s.granted = s → s.au.nextBoundary = some t →
    (∀ g, s.au.gathering = some g → g.frames.length = 48) →
    ∃ (u : Au) (counters : Counters) (cueWork playWork captureWork : List AudioWork) (played ended recorded : List Notice),
    let stops : Prop := s.au.playbackStop = true ∨ s.au.playback = .stopped
    let stopping : Bool := s.au.playbackStop || s.au.captureStop
    let late (a : Access) : Access := match a.kind with
      | .audio w => { a with kind := .audio { w with late := true } }
      | _ => a
    let volume := s.au.requestedVolume.getD s.au.volume
    exec (.blockBoundary t) s = .next { s with
      now := t
      port := s.port.map late
      au := u
      hku := (played ++ ended ++ recorded).foldl (fun h n => h.post t n) { s.hku with counters := counters } }.settle ∧
    counters = { s.hku.counters with underruns := counters.underruns, droppedBlocks := counters.droppedBlocks } ∧
    u = { s.au with
      playback := u.playback
      playbackStop := false
      consumer := u.consumer
      volume := volume
      requestedVolume := none
      cue := u.cue
      pendingCue := u.pendingCue
      startingCue := u.startingCue
      capturing := s.au.capturing && !s.au.captureStop
      captureStop := !s.au.capturing && s.au.captureStop
      captureProducer := u.captureProducer
      captureSeq := u.captureSeq
      gathering := if s.au.capturing then (if s.au.captureStop then none else some ⟨t, []⟩) else s.au.gathering
      overflow := u.overflow
      waiting := s.au.waiting.map (fun a => { a with late := true }) ++
        (cueWork ++ playWork ++ captureWork).map fun w => ⟨w, false, stopping⟩
      block := ⟨0, [], [], u.block.duck, min volume (s.hku.settings.levels[s.pu.level]).gain⟩
      nextBoundary := some (t + 1000) } ∧
    -- the playback stream
    (stops → u.playback = .stopped ∧ u.consumer = s.au.producer ∧ played = [] ∧
      counters.underruns = s.hku.counters.underruns ∧
      playWork = if s.au.consumer = s.au.producer then [] else [.playConsumer]) ∧
    (∀ l, s.hku.layout = some l → 1024 ≤ l.playback.size → ¬ stops →
      let length := l.playback.size
      let ahead := (s.au.producer - s.au.consumer).toNat
      let consumer := if length < ahead then s.au.producer - BitVec.ofNat 32 length else s.au.consumer
      let skipped : List Notice :=
        if length < ahead then [.playbackOverrun (BitVec.ofNat 32 (ahead - length)) consumer] else []
      let available := (s.au.producer - consumer).toNat
      let plays : Prop := s.au.playback = .priming ∧ s.au.threshold * 48 ≤ available ∨
        s.au.playback = .playing ∧ 48 ≤ available
      let frames (w : AudioWork) : List Nat := match w with
        | .playRead addr n => (List.range n).map fun i => addr + 4 * i
        | _ => []
      (plays → u.playback = .playing ∧ u.consumer = consumer + 48 ∧ played = skipped ∧
        counters.underruns = s.hku.counters.underruns ∧ ∃ runs : List AudioWork, playWork = runs ++ [.playConsumer] ∧
        runs.length ≤ 3 ∧ (∀ w ∈ runs, ∃ addr n, w = .playRead addr n ∧ 0 < n) ∧
        runs.flatMap frames = (List.range 48).map (fun i =>
          l.playback.base + 4 * ((consumer + BitVec.ofNat 32 i).toNat % length)) ∧
        (consumer.toNat % length + 48 ≤ length → consumer.toNat + 48 ≤ 4294967296 →
          runs = [.playRead (l.playback.base + 4 * (consumer.toNat % length)) 48])) ∧
      (s.au.playback = .priming → available < s.au.threshold * 48 → u.playback = .priming ∧ u.consumer = consumer ∧
        played = skipped ∧ counters.underruns = s.hku.counters.underruns ∧ playWork = []) ∧
      (s.au.playback = .playing → available < 48 → u.playback = .priming ∧ u.consumer = consumer ∧
        played = skipped ++ [.playbackStarved consumer (BitVec.ofNat 32 available)] ∧
        counters.underruns = s.hku.counters.underruns + 1 ∧ playWork = [])) ∧
    -- the cue
    (∀ c, s.au.cue = some c → c.played < c.length →
      let n := min 48 (c.length - c.played)
      u.cue = some { c with played := c.played + n } ∧ u.pendingCue = s.au.pendingCue ∧
      u.startingCue = s.au.startingCue ∧ u.block.duck = (c.mode == .duck) ∧ ended = [] ∧
      cueWork = [.cueData (c.addr + c.played * (if c.mono then 2 else 4)) n c.mono]) ∧
    ((∀ c, s.au.cue = some c → c.length ≤ c.played) →
      u.cue = none ∧ u.block.duck = false ∧
      (s.au.cue = none → ended = []) ∧ (∀ c, s.au.cue = some c → ended = [.cueDone c.index c.mode c.length]) ∧
      (∀ index mode, s.au.startingCue = none → s.au.pendingCue = some (index, mode) →
        u.startingCue = some (index, mode) ∧ u.pendingCue = none ∧ cueWork = [.cueEntry index mode]) ∧
      ((s.au.startingCue ≠ none ∨ s.au.pendingCue = none) →
        u.startingCue = s.au.startingCue ∧ u.pendingCue = s.au.pendingCue ∧ cueWork = [])) ∧
    -- the capture stream
    ((s.au.capturing = false ∨ s.au.gathering = none) →
      u.captureProducer = s.au.captureProducer ∧ u.captureSeq = s.au.captureSeq ∧ u.overflow = s.au.overflow ∧
      counters.droppedBlocks = s.hku.counters.droppedBlocks ∧ recorded = [] ∧ captureWork = []) ∧
    (∀ l g, s.hku.layout = some l → s.au.capturing = true → s.au.gathering = some g →
      let room : Prop := (s.au.captureProducer - s.au.captureConsumer).toNat < l.capture.size
      let position := s.au.captureProducer.toNat % l.capture.size
      u.captureSeq = s.au.captureSeq + 1 ∧
      (room → u.captureProducer = s.au.captureProducer + 1 ∧ u.overflow = false ∧
        counters.droppedBlocks = s.hku.counters.droppedBlocks ∧ recorded = [] ∧
        captureWork = [.captureRecord (l.capture.base + 208 * position) (captureBytes s.au.captureSeq g) s.au.captureSeq
          position l.capture.size, .captureProducer]) ∧
      (¬ room → u.captureProducer = s.au.captureProducer ∧ u.overflow = true ∧
        counters.droppedBlocks = s.hku.counters.droppedBlocks + 1 ∧ captureWork = [] ∧
        recorded = if s.au.overflow then [] else [.captureOverflow s.au.captureSeq]))) ∧
  (∀ (q : Word) (g : Gathering), g.frames.length = 48 →
    let b := captureBytes q g
    let edge (v : Half) : Prop := v.toInt = -32768 ∨ v.toInt = 32767
    let peak (p : Nat) (side : Frame → Half) : Prop :=
      (∀ f ∈ g.frames, (side f).toInt.natAbs ≤ p) ∧ ∃ f ∈ g.frames, (side f).toInt.natAbs = p
    b.length = 208 ∧ wordAt b 0 = q ∧ wordAt b 4 = g.time ∧ peak (fieldAt b 8 2) Frame.left ∧
      peak (fieldAt b 10 2) Frame.right ∧
      ((∃ f ∈ g.frames, edge f.left ∨ edge f.right) → fieldAt b 12 4 = 1) ∧
      ((∀ f ∈ g.frames, ¬ (edge f.left ∨ edge f.right)) → fieldAt b 12 4 = 0) ∧
      ∀ (i : Nat) (f : Frame), g.frames[i]? = some f → halfAt b (16 + 4 * i) = f.left ∧ halfAt b (18 + 4 * i) = f.right)

/-- AUDIO_GRANT with the port free and no scan-out access waiting makes the first waiting access; a count is written as it stands (R19,
R138, R142; for a PLAYBACK_START and for capture the model's choice, log entry 46). AUDIO_ACCESS_DONE: data read in its block joins it,
late data does not (R138). CUE_ENTRY_READ: a faulty entry is refused with its first fault, a sound one becomes the current cue (R148);
read late, it leaves DUCK as it was, and in its block it ducks the frames yet to be sent (the model's choice, log entries 20, 21 and 57),
and one RESTART has dropped does no more. CAPTURE_RECORD_WRITE_DONE posts the half and wrap notices (R155), of a record of before a
RESTART too (log entry 36). -/
def Obligations.AudioClientServed : Prop :=
  ∀ (t : Time) (s : State),
    (∀ a rest, s.port = none → s.scanWaiting = none → s.au.waiting = a :: rest →
      exec (.audioGrant t) s = .next { s with
        now := t
        au.waiting := rest
        port := match a.work with
          | .cueEntry index _ => some ⟨.audio a, 0x180 + 16 * index.val, .read 16, true⟩
          | .cueData addr frames mono =>
            some ⟨.audio a, addr, .read ((frames * (if mono then 2 else 4) + 3) / 4 * 4), true⟩
          | .playRead addr frames => some ⟨.audio a, addr, .read (4 * frames), true⟩
          | .playConsumer => some ⟨.audio a, 0x15C, .write ((leBytes 4 s.au.consumer.toNat).map some), true⟩
          | .captureRecord addr bytes _ _ _ => some ⟨.audio a, addr, .write (bytes.map some), true⟩
          | .captureProducer =>
            some ⟨.audio a, 0x160, .write ((leBytes 4 s.au.captureProducer.toNat).map some), true⟩ }.settle) ∧
    (∀ x late stopping work, s.port = some x → x.stop ≤ Config.dramSize → x.kind = .audio ⟨work, late, stopping⟩ →
      let bytes := x.fetch s.mem
      (∀ addr frames, work = .playRead addr frames →
        exec (.audioAccessDone t) s = .next (if late then s.served t x else
          { s.served t x with au.block.main := s.au.block.main ++ framesOf frames bytes }).settle) ∧
      (∀ addr frames mono, work = .cueData addr frames mono →
        exec (.audioAccessDone t) s = .next (if late then s.served t x else
          { s.served t x with
            au.block.cue := if mono then monoFramesOf frames bytes else framesOf frames bytes }).settle) ∧
      ((work = .playConsumer ∨ work = .captureProducer) →
        exec (.audioAccessDone t) s = .next (s.served t x).settle) ∧
      (∀ addr data sequence position length, work = .captureRecord addr data sequence position length →
        let half := if position = length / 2 then (s.served t x).post (.captureHalf position sequence) else s.served t x
        exec (.captureRecordWriteDone t) s =
          .next (if position + 1 = length then half.post (.captureWrap position sequence) else half).settle) ∧
      (∀ index mode, work = .cueEntry index mode → x.live = false →
        exec (.cueEntryRead t) s = .next (s.served t x).settle) ∧
      (∀ index mode, work = .cueEntry index mode → x.live = true →
        let addr := fieldAt bytes 0 4
        let frames := fieldAt bytes 4 4
        let mono := fieldAt bytes 8 1 % 2 == 1
        let size := if mono then 2 else 4
        let read : State := { s.served t x with au.startingCue := none }
        (frames = 0 ∨ 480000 < frames →
          exec (.cueEntryRead t) s = .next (read.post (.cueRefused index mode .length)).settle) ∧
        (1 ≤ frames → frames ≤ 480000 → addr % 4 ≠ 0 →
          exec (.cueEntryRead t) s = .next (read.post (.cueRefused index mode .align)).settle) ∧
        (1 ≤ frames → frames ≤ 480000 → addr % 4 = 0 → 0x20000000 < addr + frames * size →
          exec (.cueEntryRead t) s = .next (read.post (.cueRefused index mode .range)).settle) ∧
        (1 ≤ frames → frames ≤ 480000 → addr % 4 = 0 → addr + frames * size ≤ 0x20000000 →
          exec (.cueEntryRead t) s = .next { read with
            au := { read.au with
              cue := some ⟨index, mode, addr, frames, mono, min 48 frames⟩
              waiting := ⟨.cueData addr (min 48 frames) mono, late, stopping⟩ :: s.au.waiting
              block := { s.au.block with
                duck := if late then s.au.block.duck else mode == CueMode.duck } } }.settle)))

/-- CODEC_FRAME: silence while BOOTING (R136); once READY the next of the block's 48 frames leaves, its samples from the frames read so far
(R138, R150), and the microphone frame joins the block in gathering (R137, R154). The bound of 48 is the model's, log entry 22. -/
def Obligations.CodecFrameSent : Prop :=
  ∀ (t : Time) (s : State) (mic : Frame), s.granted = s →
    (s.hku.part = .booting → exec (.codecFrame t mic) s = .next { s with now := t, au.output := ⟨0, 0⟩ }.settle) ∧
    (s.hku.part = .ready → s.au.block.sent < 48 →
      let b := s.au.block
      let main := b.main[b.sent]?.getD ⟨0, 0⟩
      let cue := b.cue[b.sent]?.getD ⟨0, 0⟩
      exec (.codecFrame t mic) s = .next { s with
        now := t
        au := { s.au with
          output := ⟨mixSample main.left.toInt cue.left.toInt b.duck b.gain,
            mixSample main.right.toInt cue.right.toInt b.duck b.gain⟩
          block := { b with sent := b.sent + 1 }
          gathering := s.au.gathering.map fun g : Gathering => { g with frames := g.frames ++ [mic] } } }.settle)

/-! ### Power (chapter 9) -/

/-- POWER_GRANT: the grant clamped to 500 to 20,000 waits for the next window end (R164). POWER_CEILING: above 7 BAD_PARAM, else the
ceiling; a level above it falls to it at once, with the counts cleared and POWER_LEVEL_CHANGED, and the paused flag follows, before a copy
grant that falls together with the command; the grant's own row is there for the other order (R131, R165, R166, log entry 55).
SET_ATTENTION_MASK: the mask becomes the command's value (R174). -/
def Obligations.PowerCommands : Prop :=
  ∀ (t : Time) (s : State) (r : Record), (s.granted = s ∨ t = s.now) → s.hku.work = .taking r →
    let value := fieldAt r.bytes 4 4
    (r.code = 0x0060 → exec (.powerGrant t) s = .next ({ s with
      now := t
      pu.requested := some (if value < 500 then 500 else if 20000 < value then 20000 else value) }.finishTaking).settle) ∧
    (r.code = 0x0061 → 8 ≤ value →
      exec (.powerCeiling t) s = .next ({ s with now := t }.refuse r .badParam).settle) ∧
    (∀ ceiling : Fin 8, r.code = 0x0061 → ceiling.val = value → s.pu.level ≤ ceiling →
      exec (.powerCeiling t) s = .next ({ s with now := t, pu.ceiling := ceiling }.finishTaking).settle) ∧
    (∀ ceiling : Fin 8, r.code = 0x0061 → ceiling.val = value → ceiling < s.pu.level →
      exec (.powerCeiling t) s = .next (({ s with
        now := t
        pu := { s.pu with ceiling := ceiling, level := ceiling, overCount := 0, underCount := 0 }
        ce.paused := decide (ceiling.val < 2) }.post
          (.powerLevelChanged s.pu.level ceiling .ceiling s.pu.lastAverage)).finishTaking).settle) ∧
    (r.code = 0x0070 → exec (.setAttentionMask t) s = .next ({ s with
      now := t
      hku.attentionMask := BitVec.ofNat 32 value }.finishTaking).settle)

/-- POWER_SAMPLE (R158 to R163). A sample below the threshold takes the level to 0, clears the counts, sets the hold to 64 and posts
UNDERVOLTAGE unless the hold was 64; another lowers the hold. The sample's power joins the window. The sixteenth ends it: the requested
grant applies, the average is over, under or neither, and the level steps down at the second over window, up at the eighth under window
below the ceiling with no hold. A time without a reading only passes. -/
def Obligations.PowerSampled : Prop :=
  ∀ (t : Time) (s : State), s.granted = s → s.pu.nextSample = some t →
    exec (.powerSample t none) s = .next { s with now := t, pu.nextSample := some (t + 1000) }.settle ∧
    ∀ v i : Nat, ∃ u : State,
      let mv := min v 24000
      let ma := min i 8000
      let low : Prop := mv < s.hku.settings.undervoltage
      let level := if low then 0 else s.pu.level
      let overs := if low then 0 else s.pu.overCount
      let unders := if low then 0 else s.pu.underCount
      let hold := if low then 64 else s.pu.hold - 1
      let sum := s.pu.accumulator + mv * ma / 1000
      let grant := s.pu.requested.getD s.pu.grant
      let average := sum / 16
      let ends : Prop := s.pu.sampleCount + 1 = 16
      let noted := if low ∧ s.pu.hold < 64 then s.hku.post t (.undervoltage s.pu.level mv ma) else s.hku
      exec (.powerSample t (some ⟨v, i⟩)) s = .next u.settle ∧
      u = { s with now := t, pu := u.pu, ce := u.ce, hku := u.hku } ∧
      u.ce = { s.ce with paused := u.ce.paused } ∧ (s.PowerOk → u.ce.paused = decide (u.pu.level.val < 2)) ∧
      u.pu.hold = hold ∧ u.pu.ceiling = s.pu.ceiling ∧ u.pu.rail = s.pu.rail ∧ u.pu.nextSample = some (t + 1000) ∧
      (¬ ends → u.pu = { s.pu with
        level := level, overCount := overs, underCount := unders, hold := hold, accumulator := sum,
        sampleCount := s.pu.sampleCount + 1, nextSample := some (t + 1000) } ∧ u.hku = noted) ∧
      (ends → u.pu.accumulator = 0 ∧ u.pu.sampleCount = 0 ∧ u.pu.grant = grant ∧ u.pu.requested = none ∧
        u.pu.lastAverage = average ∧
        (grant < average → 2 ≤ overs + 1 → level ≠ 0 → u.pu.level = level - 1 ∧ u.pu.overCount = 0 ∧ u.pu.underCount = 0 ∧
          u.hku = noted.post t (.powerLevelChanged level (level - 1) .over average)) ∧
        (grant < average → 2 ≤ overs + 1 → level = 0 → u.pu.level = 0 ∧ u.pu.overCount = 0 ∧ u.pu.underCount = 0 ∧
          u.hku = noted) ∧
        (grant < average → overs + 1 < 2 → u.pu.level = level ∧ u.pu.overCount = overs + 1 ∧ u.pu.underCount = 0 ∧
          u.hku = noted) ∧
        (average ≤ grant → grant - grant / 8 < average → u.pu.level = level ∧ u.pu.overCount = 0 ∧ u.pu.underCount = 0 ∧
          u.hku = noted) ∧
        (average ≤ grant - grant / 8 → 8 ≤ unders + 1 → level < s.pu.ceiling → hold = 0 →
          u.pu.level = level + 1 ∧ u.pu.overCount = 0 ∧ u.pu.underCount = 0 ∧
          u.hku = noted.post t (.powerLevelChanged level (level + 1) .under average)) ∧
        (average ≤ grant - grant / 8 → (unders + 1 < 8 ∨ s.pu.ceiling ≤ level ∨ hold ≠ 0) →
          u.pu.level = level ∧ u.pu.overCount = 0 ∧ u.pu.underCount = min 8 (unders + 1) ∧ u.hku = noted))

/-! ### Housekeeping (chapter 10) -/

/-- HOUSEKEEPING_GRANT with the port free and no client of a higher priority waiting: the first item of R172 that is due. A part-half write
clears its header-due flag (R87); the first status access takes the snapshot, raises the status write count and sets the permit, and the
block shows the count of the snapshot in both copies (R176, log entry 41). The part half and the status block are laid out as section 11.7
states (R86, R176), with the value codes of section 11.8; log entry 29 on the frame number. The read of a command record is whole within
its grant: the model's choice, log entry 11. -/
def Obligations.HousekeepingGranted : Prop :=
  (∀ (t : Time) (s : State), s.port = none → s.scanWaiting = none → s.au.waiting = [] → s.inboundWaiting = false →
    s.mu.pub.due = none →
    let h := s.hku
    let granted (u : State) (kind : AccessKind) (addr : Nat) (bytes : List Byte) : Host.Outcome State Fault Refusal :=
      .next { u with now := t, port := some ⟨kind, addr, .write (bytes.map some), true⟩ }.settle
    let quiet : Prop := (∀ step rest, h.work ≠ .restarting (step :: rest)) ∧ h.writeList = [] ∧
      h.noticeWritten = h.noticeShown ∧ (∀ k : Fin 4, s.fcu.slots[k].headerDue = false)
    let idle : Prop := quiet ∧ h.statusRest = none ∧ h.statusDue = false
    (∀ step rest, h.work = .restarting (step :: rest) →
      exec (.housekeepingGrant t) s = .next { s with now := t, port := some (s.restartAccess step) }.settle) ∧
    (∀ p rest, (∀ step rest, h.work ≠ .restarting (step :: rest)) → h.writeList = p :: rest →
      exec (.housekeepingGrant t) s = granted s .noticeEntry (0x800 + 16 * p.position) p.bytes) ∧
    ((∀ step rest, h.work ≠ .restarting (step :: rest)) → h.writeList = [] → h.noticeWritten ≠ h.noticeShown →
      exec (.housekeepingGrant t) s =
        granted s (.noticeProducer h.noticeWritten) 0x148 (leBytes 4 h.noticeWritten.toNat)) ∧
    (∀ k : Fin 4, (∀ step rest, h.work ≠ .restarting (step :: rest)) → h.writeList = [] →
      h.noticeWritten = h.noticeShown → s.fcu.slots[k].headerDue = true →
      (∀ j : Fin 4, j < k → s.fcu.slots[j].headerDue = false) →
      exec (.housekeepingGrant t) s =
        granted { s with fcu.slots := s.fcu.slots.set k { s.fcu.slots[k] with headerDue := false } } (.partHalf k)
          (s.slotHeader k + 32) s.fcu.slots[k].partHalf) ∧
    (∀ bytes, quiet → h.statusRest = some bytes →
      exec (.housekeepingGrant t) s = granted { s with hku.statusRest := none } .statusSecond 0x300 bytes) ∧
    (quiet → h.statusRest = none → h.statusDue = true →
      exec (.housekeepingGrant t) s = granted { s with
        hku := { h with
          statusCount := h.statusCount + 1
          statusDue := false
          permit := true
          statusRest := some (List.replicate 252 0 ++ leBytes 4 h.statusCount.toNat) } }
        .statusFirst 0x200 { s with now := t }.statusFirst) ∧
    (idle → h.consumerDue = true →
      exec (.housekeepingGrant t) s =
        granted { s with hku.consumerDue := false } .commandConsumer 0x144 (leBytes 4 h.consumer.toNat)) ∧
    (∀ r, idle → h.consumerDue = false → h.work = .tableDue r →
      exec (.housekeepingGrant t) s = .next { s with
        now := t
        hku.work := .tableReading r
        port := some ⟨.layoutTable, 0x100, .read 64, true⟩ }.settle) ∧
    (idle → h.consumerDue = false → h.work = .idle → h.consumer ≠ h.latest →
      let bytes := s.mem.readBytes (0x400 + 32 * (h.consumer.toNat % 32)) 32
      exec (.housekeepingGrant t) s = .next { s with
        now := t
        hku.work := .taking ⟨halfAt bytes 0, halfAt bytes 2, bytes⟩ }.settle)) ∧
  (∀ x : Slot,
    let b := x.partHalf
    let flags := (if x.flags.clampedX then 1 else 0) + (if x.flags.clampedY then 2 else 0) +
      (if x.flags.poseStale then 4 else 0) + (if x.flags.repeated then 8 else 0) + (if x.flags.noPose then 16 else 0)
    b.length = 32 ∧ fieldAt b 0 1 = x.state.code ∧ fieldAt b 1 1 = x.outcome.code ∧ fieldAt b 2 1 = flags ∧
      fieldAt b 3 1 = x.shown % 256 ∧ wordAt b 4 = x.firstShown ∧ halfAt b 8 = BitVec.ofInt 16 x.shift.left ∧
      halfAt b 10 = BitVec.ofInt 16 x.shift.right ∧ halfAt b 12 = BitVec.ofInt 16 x.shift.vertical ∧
      ∀ n, 14 ≤ n → n < 32 → fieldAt b n 1 = 0) ∧
  (∀ s : State,
    let b := s.statusFirst
    let c := s.hku.counters
    let flag (x : Bool) : Nat := if x then 1 else 0
    b.length = 256 ∧ wordAt b 0 = s.hku.statusCount ∧ wordAt b 4 = s.now ∧
      fieldAt b 8 1 = s.hku.part.code ∧ fieldAt b 9 1 = s.tiu.link.code ∧ fieldAt b 10 1 = s.tiu.flow.code ∧
      fieldAt b 11 1 = s.tiu.queue.length % 256 ∧ fieldAt b 12 1 = flag s.hku.layout.isSome ∧
      fieldAt b 13 1 = s.fcu.display.code ∧ fieldAt b 14 1 = flag s.fcu.stopPending ∧ fieldAt b 15 1 = s.mu.motion.code ∧
      fieldAt b 16 1 = s.au.playback.code ∧ fieldAt b 17 1 = flag s.au.capturing ∧
      ((∀ k : Fin 4, s.fcu.slots[k].state ≠ .showing) → fieldAt b 18 1 = 0xFF ∧ fieldAt b 20 4 = 0) ∧
      (∀ k : Fin 4, s.fcu.slots[k].state = .showing → (∀ j : Fin 4, s.fcu.slots[j].state = .showing → j = k) →
        fieldAt b 18 1 = k.val ∧ (s.fcu.slots[k].half = none → fieldAt b 20 4 = 0) ∧
        ∀ h, s.fcu.slots[k].half = some h → wordAt b 20 = h.frameNumber) ∧
      fieldAt b 19 1 = s.pu.level.val ∧ fieldAt b 24 4 = s.pu.lastAverage % 4294967296 ∧
      fieldAt b 28 4 = s.pu.grant % 4294967296 ∧ fieldAt b 32 1 = s.pu.ceiling.val ∧ fieldAt b 33 1 = flag s.ce.paused ∧
      (s.ce.jobs = [] → fieldAt b 34 1 = 0 ∧ fieldAt b 36 2 = 0 ∧ fieldAt b 40 4 = 0) ∧
      (∀ j rest, s.ce.jobs = j :: rest → fieldAt b 34 1 = 1 ∧ halfAt b 36 = j.tag ∧
        fieldAt b 40 4 = (j.rowBytes * j.rows - s.ce.progress.written) % 4294967296) ∧
      fieldAt b 35 1 = 0 ∧ fieldAt b 38 2 = 0 ∧
      wordAt b 44 = c.framesShown ∧ wordAt b 48 = c.repeated ∧ wordAt b 52 = c.skipped ∧ wordAt b 56 = c.contentLost ∧
      wordAt b 60 = c.refusedWrites ∧ wordAt b 64 = c.overrunWrites ∧ wordAt b 68 = c.outOfRangeWrites ∧
      wordAt b 72 = c.linkErrors ∧ wordAt b 76 = c.underruns ∧ wordAt b 80 = c.droppedBlocks ∧
      wordAt b 84 = c.noticesLost ∧ ∀ n, 88 ≤ n → n < 256 → fieldAt b n 1 = 0) ∧
  [SlotState.free, .waiting, .queued, .showing].map SlotState.code = [0, 1, 2, 3] ∧
  [SlotOutcome.none, .shown, .skipped, .flushed].map SlotOutcome.code = [0, 1, 2, 3] ∧
  [PartState.booting, .ready].map PartState.code = [0, 1] ∧ [LinkState.down, .up].map LinkState.code = [0, 1] ∧
  [FlowState.running, .held].map FlowState.code = [0, 1] ∧
  [DisplayState.off, .powering, .blank, .showing].map DisplayState.code = [0, 1, 2, 3] ∧
  [MotionState.off, .running, .stalled].map MotionState.code = [0, 1, 2] ∧
  [PlaybackState.stopped, .priming, .playing].map PlaybackState.code = [0, 1, 2]

/-- NOTICE_ENTRY_WRITE_DONE: the notice leaves the write list and the written count rises. NOTICE_PRODUCER_WRITE_DONE: the shown count takes
the value written, and each notice shown first by it whose kind the mask selects asks for an ATTENTION (R170, R173), in the order in which
the notices took their places, which the model takes for R173's order of position (log entry 26). A notice write that RESTART has dropped
only completes (log entries 16 and 48). STATUS_TIMER_EXPIRY: a status write is due, and the timer starts again (R175). The other two writes
only complete (R37, R176). -/
def Obligations.HousekeepingWritten : Prop :=
  ∀ (t : Time) (s : State),
    (s.granted = s → s.hku.statusTimer = some t →
      exec (.statusTimerExpiry t) s = .next { s with
        now := t
        hku := { s.hku with statusDue := true, statusTimer := some (t + 10000) } }.settle) ∧
    (∀ a, s.port = some a → a.stop ≤ Config.dramSize →
      (∀ p rest, a.kind = .noticeEntry → a.live = true → s.hku.writeList = p :: rest →
        exec (.noticeEntryWriteDone t) s = .next { s.served t a with
          hku := { s.hku with
            writeList := rest
            noticeWritten := s.hku.noticeWritten + 1
            unshown := s.hku.unshown ++ [(p.position, p.notice.code)] } }.settle) ∧
      (∀ written, a.kind = .noticeProducer written → a.live = true →
        let shown := s.hku.unshown.take (written - s.hku.noticeShown).toNat
        exec (.noticeProducerWriteDone t) s = .next { s.served t a with
          tiu := shown.foldl
            (fun (u : Tiu) (n : Nat × Nat) => if s.hku.attentionMask.getLsbD n.2 then u.attend n.1 n.2 else u) s.tiu
          hku := { s.hku with
            noticeShown := written
            unshown := s.hku.unshown.drop (written - s.hku.noticeShown).toNat } }.settle) ∧
      (a.live = false →
        (a.kind = .noticeEntry → exec (.noticeEntryWriteDone t) s = .next (s.served t a).settle) ∧
        (∀ written, a.kind = .noticeProducer written →
          exec (.noticeProducerWriteDone t) s = .next (s.served t a).settle)) ∧
      ((a.kind = .statusFirst ∨ a.kind = .statusSecond) →
        exec (.statusBlockWriteDone t) s = .next (s.served t a).settle) ∧
      (a.kind = .commandConsumer → exec (.commandConsumerWriteDone t) s = .next (s.served t a).settle)) ∧
    (∀ (u : Tiu) (position kind : Nat),
      (u.link = .up → u.order.countP Upstream.isAttention < 8 →
        u.attend position kind = { u with order := u.order ++ [.attention position kind] }) ∧
      ((u.link = .down ∨ 8 ≤ u.order.countP Upstream.isAttention) → u.attend position kind = u))

/-! ### Properties of every step -/

/-- A step changes memory only by completing the access at the port, the grants due being made, and only inside that access's span (R18,
R19). -/
def Obligations.MemoryChangesByAccess : Prop :=
  ∀ (i : Instr) (s s' : State), exec i s = .next s' →
    s'.mem = s.mem ∨ ∃ a, s.granted.port = some a ∧ s'.mem = a.apply s.mem ∧
      ∀ c, (c < a.addr ∨ a.addr + a.transfer.length ≤ c) → s'.mem.read c = s.mem.read c

/-- Every step keeps memory in canonical form and inside DRAM. -/
def Obligations.MemoryCanonicalKept : Prop :=
  ∀ s s' : State, s.memoryOk → step s = .next s' → s'.memoryOk

/-- Every step keeps the inbound queue, the upstream lists, the publication list, the history and the job queue within their room, and the
notice counts at most 64 apart (R6, R16, R66, R70, R126, R169). The notice write list itself may pass 64, log entry 49. -/
def Obligations.CapacitiesKept : Prop :=
  ∀ s s' : State, s.CapacitiesOk → step s = .next s' → s'.CapacitiesOk

/-- Every step keeps the power level at or below the ceiling, the paused flag set exactly at levels 0 and 1, and the counts in range
(R131, R158 to R165). -/
def Obligations.PowerKept : Prop :=
  ∀ s s' : State, s.PowerOk → step s = .next s' → s'.PowerOk

/-- Every step keeps the present queue equal to the QUEUED slots, each once, and one slot SHOWING exactly when the display is SHOWING
(R84). Every step keeps each slot's copy-pending count equal to the number of jobs that mark it, above 0 while the slot is WAITING and 0
while it is QUEUED (R83, R127, R134). -/
def Obligations.PresentQueueKept : Prop :=
  (∀ s s' : State, s.SlotsOk → step s = .next s' → s'.SlotsOk) ∧
  ∀ s s' : State, s.MarksOk → step s = .next s' → s'.MarksOk

/-- Every step keeps the sequences of the pose history, the publication list and the next record strictly increasing (R65, R66, R70). -/
def Obligations.PoseOrderKept : Prop :=
  ∀ s s' : State, s.PosesOk → step s = .next s' → s'.PosesOk

/-- Every step keeps a read tag OUTSTANDING exactly while one read of it is inside the part (R5, R8, R10, R17). Every step keeps the flow
state RUNNING while the link is DOWN, and HELD while it is UP with 48 or more requests in the queue (R11, R12, R14, R17). -/
def Obligations.ReadTagsKept : Prop :=
  (∀ s s' : State, s.TagsOk → step s = .next s' → s'.TagsOk) ∧
  ∀ s s' : State, s.FlowOk → step s = .next s' → s'.FlowOk

/-- While the pose hold is set, and stays set, no step changes which exchange record is front, or its sequence. A byte of the front record
changes only by the completion of an access at the port, of whatever client, whose span holds it; and the accesses of the motion client
that a step makes keep clear of the front record (R72, R73, R76; the write of a record granted before a flip: log entry 38). Every step
keeps the applied layout without fault for the slot size of some boot settings, aligned, inside DRAM, above the Anchor Block and its
regions disjoint, and without a layout display, motion and streams stopped (R32, R34, R58, R89, R140, R153). -/
def Obligations.HeldFrontKept : Prop :=
  let front (s : State) : Nat := match s.mu.pub.exchange.front with
    | .ex0 => 0x1C0
    | .ex1 => 0x1E0
  (∀ (i : Instr) (s s' : State), exec i s = .next s' → s.mu.pub.exchange.hold = true → s'.mu.pub.exchange.hold = true →
    s'.mu.pub.exchange.front = s.mu.pub.exchange.front ∧ s'.mu.pub.exchange.frontSeq = s.mu.pub.exchange.frontSeq ∧
    ∀ c, front s ≤ c → c < front s + 32 →
      (∀ a, s.granted.port = some a → c < a.addr ∨ a.addr + a.transfer.length ≤ c) → s'.mem.read c = s.mem.read c) ∧
  (∀ (i : Instr) (s s' : State) (a : Access), s.LayoutOk → s.port = none → s.mu.pub.exchange.hold = true →
    exec i s = .next s' → s'.mu.pub.exchange.hold = true → s'.port = some a → a.kind.client = .motion →
    a.addr + a.transfer.length ≤ front s ∨ front s + 32 ≤ a.addr) ∧
  ∀ s s' : State, s.LayoutOk → step s = .next s' → s'.LayoutOk

/-- No step stops but with the fault of an access at the port, the grants due being made, that leaves DRAM: none is refused. -/
def Obligations.OnlyOutsideDramStops : Prop :=
  ∀ (i : Instr) (s : State),
    (∀ r, exec i s ≠ .refused r) ∧
    (∀ f, exec i s = .fault f → ∃ a, s.granted.port = some a ∧ f = .outsideDram a.addr ∧
      0x20000000 < a.addr + a.transfer.length)

/-- Over any run of samples the accumulator moves by the sum of the increments, and the increments with the final remainder are the exact
sum: 1,000,000 times the increments, plus the final remainder, is the sum of rate times 4096 times interval, plus the first remainder; the
remainder stays in 0 to 999,999 (R54). -/
def Obligations.AccumulationExact : Prop :=
  ∀ (samples : List (Int × Nat)) (angle : Word) (remainder : Nat), remainder < 1000000 →
    let final := samples.foldl (fun (x : Word × Nat) y => accumulate x.1 y.1 y.2 x.2) (angle, remainder)
    ∃ moved : Int, final.1 = angle + BitVec.ofInt 32 moved ∧ final.2 < 1000000 ∧
      1000000 * moved + final.2 = (samples.map fun y => y.1 * 4096 * (y.2 : Int)).sum + remainder

/-- The arithmetic of a shown frame and of an output sample stays in its bounds (R103, R104, R111, R112, R116, R150): shifts inside the
guard band, so the window lies inside the eye source; the rounding is to the nearest, half away from zero; the lit duration is the least
of the request, the cap and the frame period less lit_offset, so it ends by the next boundary; an output sample is the floor of its
product. -/
def Obligations.PictureAndSoundBounds : Prop :=
  (∀ (c : Settings) (trims : Trims) (sx sy : Int) (stale noPose : Bool) (base : Nat) (k : Fin 4),
    let x := (shiftResults c trims sx sy stale noPose).shift
    let n := Scan.start c base k x
    (-(c.guardX : Int) ≤ x.left ∧ x.left ≤ c.guardX) ∧ (-(c.guardX : Int) ≤ x.right ∧ x.right ≤ c.guardX) ∧
    (-(c.guardY : Int) ≤ x.vertical ∧ x.vertical ≤ c.guardY) ∧
    n.columnLeft + c.panelWidth ≤ c.sourceWidth ∧ n.columnRight + c.panelWidth ≤ c.sourceWidth ∧
    n.originRow + c.panelHeight ≤ c.sourceHeight) ∧
  (∀ (n : Int) (d : Nat), 0 < d → 2 * |roundDiv n d * d - n| ≤ d ∧ (2 * |roundDiv n d * d - n| = d → |n| ≤ |roundDiv n d * d|)) ∧
  (∀ (c : Settings) (request cap : Nat), c.litOffset + 500 ≤ c.framePeriod →
    litDuration c request cap = min (min request cap) (c.framePeriod - c.litOffset) ∧
    litDuration c request cap ≤ cap ∧ litDuration c request cap ≤ request ∧
    c.litOffset + litDuration c request cap ≤ c.framePeriod ∧
    (100 ≤ request → 100 ≤ cap → 100 ≤ litDuration c request cap)) ∧
  (∀ (main cue : Half) (duck : Bool) (gain : Nat), gain ≤ 32768 →
    let m := if duck then main.toInt / 4 else main.toInt
    let sum := max (-32768) (min 32767 (m + cue.toInt))
    (mixSample main.toInt cue.toInt duck gain).toInt = sum * gain / 32768)

/-- What the part starts from satisfies every invariant, and so does the state that POWER_ON leads to whatever came before, memory being
canonical in it when it was before (POWER_ON keeps DRAM, log entry 5). -/
def Obligations.InvariantsAtReset : Prop :=
  (State.reset.memoryOk ∧ State.reset.CapacitiesOk ∧ State.reset.PowerOk ∧ State.reset.SlotsOk ∧ State.reset.MarksOk ∧
    State.reset.PosesOk ∧ State.reset.TagsOk ∧ State.reset.FlowOk ∧ State.reset.LayoutOk) ∧
  ∀ s : State, ∃ u : State, exec .powerOn s = .next u ∧ (s.memoryOk → u.memoryOk) ∧ u.CapacitiesOk ∧ u.PowerOk ∧
    u.SlotsOk ∧ u.MarksOk ∧ u.PosesOk ∧ u.TagsOk ∧ u.FlowOk ∧ u.LayoutOk
end

