-- ==== Sys2Proof/Laws/Bytes.lean ====
section
/-! SUPPORT. Little-endian runs of bytes: the fields of a record laid out field by field. -/

namespace Sys2Proof.Machine

@[simp] theorem leBytes_length (n v : Nat) : (leBytes n v).length = n := by
  induction n generalizing v with
  | zero => rfl
  | succ n ih => simp [leBytes, ih]

/-- What is left of a number's bytes behind the first ones. -/
theorem leBytes_drop (n v off : Nat) : (leBytes n v).drop off = leBytes (n - off) (v / 256 ^ off) := by
  induction off generalizing n v with
  | zero => simp
  | succ off ih =>
    cases n with
    | zero => simp [leBytes]
    | succ n => rw [leBytes, List.drop_succ_cons, ih, Nat.add_sub_add_right, Nat.div_div_eq_div_mul, Nat.pow_succ']

/-- The first bytes of a number's bytes. -/
theorem leBytes_take (n v m : Nat) : (leBytes n v).take m = leBytes (min m n) v := by
  induction m generalizing n v with
  | zero => simp [leBytes]
  | succ m ih =>
    cases n with
    | zero => simp [leBytes]
    | succ n => rw [leBytes, List.take_succ_cons, ih, Nat.succ_min_succ, leBytes]

/-- The bytes of a number spell it, modulo what they hold. -/
theorem leValue_leBytes (n v : Nat) : leValue (leBytes n v) = v % 256 ^ n := by
  induction n generalizing v with
  | zero => simp [leBytes, leValue, Nat.mod_one]
  | succ n ih =>
    have h : (BitVec.ofNat 8 (v % 256)).toNat = v % 256 := by simp
    rw [leBytes, leValue, ih, h, pow_succ', Nat.mod_mul]

/-- A field inside one number of a record. -/
theorem fieldAt_leBytes (n v off m : Nat) :
    fieldAt (leBytes n v) off m = v / 256 ^ off % 256 ^ min m (n - off) := by
  rw [fieldAt, leBytes_drop, leBytes_take, leValue_leBytes]

/-- A field that lies behind the first part of a record. -/
theorem fieldAt_append_right (a b : List Byte) (off n : Nat) (h : a.length ≤ off) :
    fieldAt (a ++ b) off n = fieldAt b (off - a.length) n := by
  rw [fieldAt, fieldAt, List.drop_append, List.drop_eq_nil_of_le h, List.nil_append]

/-- A field that lies in the first part of a record. -/
theorem fieldAt_append_left (a b : List Byte) (off n : Nat) (h : off + n ≤ a.length) :
    fieldAt (a ++ b) off n = fieldAt a off n := by
  rw [fieldAt, fieldAt, List.drop_append, List.take_append_of_le_length (by rw [List.length_drop]; omega)]

/-- Zero bytes spell zero. -/
theorem leValue_zeros (n : Nat) : leValue (List.replicate n 0) = 0 := by
  induction n with
  | zero => rfl
  | succ n ih => rw [List.replicate_succ, leValue, ih]; rfl

/-- A field among zero bytes. -/
theorem fieldAt_zeros (k off n : Nat) : fieldAt (List.replicate k 0) off n = 0 := by
  rw [fieldAt, List.drop_replicate, List.take_replicate, leValue_zeros]

/-- A field of a number at the front of a record. -/
theorem fieldAt_number (n v : Nat) (b : List Byte) (off m : Nat) (h : off + m ≤ n) :
    fieldAt (leBytes n v ++ b) off m = v / 256 ^ off % 256 ^ m := by
  rw [fieldAt_append_left _ _ _ _ (by simpa using h), fieldAt_leBytes, Nat.min_eq_left (by omega)]

/-- A field behind the number at the front of a record. -/
theorem fieldAt_behind (n v : Nat) (b : List Byte) (off m : Nat) (h : n ≤ off) :
    fieldAt (leBytes n v ++ b) off m = fieldAt b (off - n) m := by
  rw [fieldAt_append_right _ _ _ _ (by simpa using h), leBytes_length]

end Sys2Proof.Machine
end

