-- ==== Sys2Proof/Laws/State.lean ====
section
/-! SUPPORT. What the shared operations leave unchanged, one lemma per field, so that no later proof unfolds a record update. -/

namespace Sys2Proof.Machine

/-! ### Posting a notice -/

@[simp] theorem Hku.post_part (h : Hku) (t : Time) (n : Notice) : (h.post t n).part = h.part := by
  unfold Hku.post; split <;> rfl

@[simp] theorem Hku.post_flashDue (h : Hku) (t : Time) (n : Notice) : (h.post t n).flashDue = h.flashDue := by
  unfold Hku.post; split <;> rfl

@[simp] theorem Hku.post_source (h : Hku) (t : Time) (n : Notice) : (h.post t n).source = h.source := by
  unfold Hku.post; split <;> rfl

@[simp] theorem Hku.post_adjusted (h : Hku) (t : Time) (n : Notice) : (h.post t n).adjusted = h.adjusted := by
  unfold Hku.post; split <;> rfl

@[simp] theorem Hku.post_settings (h : Hku) (t : Time) (n : Notice) : (h.post t n).settings = h.settings := by
  unfold Hku.post; split <;> rfl

@[simp] theorem Hku.post_layout (h : Hku) (t : Time) (n : Notice) : (h.post t n).layout = h.layout := by
  unfold Hku.post; split <;> rfl

@[simp] theorem Hku.post_consumer (h : Hku) (t : Time) (n : Notice) : (h.post t n).consumer = h.consumer := by
  unfold Hku.post; split <;> rfl

@[simp] theorem Hku.post_latest (h : Hku) (t : Time) (n : Notice) : (h.post t n).latest = h.latest := by
  unfold Hku.post; split <;> rfl

@[simp] theorem Hku.post_compareDue (h : Hku) (t : Time) (n : Notice) : (h.post t n).compareDue = h.compareDue := by
  unfold Hku.post; split <;> rfl

@[simp] theorem Hku.post_work (h : Hku) (t : Time) (n : Notice) : (h.post t n).work = h.work := by
  unfold Hku.post; split <;> rfl

@[simp] theorem Hku.post_consumerDue (h : Hku) (t : Time) (n : Notice) : (h.post t n).consumerDue = h.consumerDue := by
  unfold Hku.post; split <;> rfl

@[simp] theorem Hku.post_noticeWritten (h : Hku) (t : Time) (n : Notice) : (h.post t n).noticeWritten = h.noticeWritten := by
  unfold Hku.post; split <;> rfl

@[simp] theorem Hku.post_noticeShown (h : Hku) (t : Time) (n : Notice) : (h.post t n).noticeShown = h.noticeShown := by
  unfold Hku.post; split <;> rfl

@[simp] theorem Hku.post_noticeConsumer (h : Hku) (t : Time) (n : Notice) : (h.post t n).noticeConsumer = h.noticeConsumer := by
  unfold Hku.post; split <;> rfl

@[simp] theorem Hku.post_unshown (h : Hku) (t : Time) (n : Notice) : (h.post t n).unshown = h.unshown := by
  unfold Hku.post; split <;> rfl

@[simp] theorem Hku.post_attentionMask (h : Hku) (t : Time) (n : Notice) : (h.post t n).attentionMask = h.attentionMask := by
  unfold Hku.post; split <;> rfl

@[simp] theorem Hku.post_statusTimer (h : Hku) (t : Time) (n : Notice) : (h.post t n).statusTimer = h.statusTimer := by
  unfold Hku.post; split <;> rfl

@[simp] theorem Hku.post_statusDue (h : Hku) (t : Time) (n : Notice) : (h.post t n).statusDue = h.statusDue := by
  unfold Hku.post; split <;> rfl

@[simp] theorem Hku.post_statusRest (h : Hku) (t : Time) (n : Notice) : (h.post t n).statusRest = h.statusRest := by
  unfold Hku.post; split <;> rfl

@[simp] theorem Hku.post_statusCount (h : Hku) (t : Time) (n : Notice) : (h.post t n).statusCount = h.statusCount := by
  unfold Hku.post; split <;> rfl

@[simp] theorem Hku.post_permit (h : Hku) (t : Time) (n : Notice) : (h.post t n).permit = h.permit := by
  unfold Hku.post; split <;> rfl

/-! ### State.post -/

@[simp] theorem State.post_now (s : State) (n : Notice) : (s.post n).now = s.now := rfl

@[simp] theorem State.post_mem (s : State) (n : Notice) : (s.post n).mem = s.mem := rfl

@[simp] theorem State.post_port (s : State) (n : Notice) : (s.post n).port = s.port := rfl

@[simp] theorem State.post_tiu (s : State) (n : Notice) : (s.post n).tiu = s.tiu := rfl

@[simp] theorem State.post_fcu (s : State) (n : Notice) : (s.post n).fcu = s.fcu := rfl

@[simp] theorem State.post_ssu (s : State) (n : Notice) : (s.post n).ssu = s.ssu := rfl

@[simp] theorem State.post_mu (s : State) (n : Notice) : (s.post n).mu = s.mu := rfl

@[simp] theorem State.post_au (s : State) (n : Notice) : (s.post n).au = s.au := rfl

@[simp] theorem State.post_pu (s : State) (n : Notice) : (s.post n).pu = s.pu := rfl

@[simp] theorem State.post_ce (s : State) (n : Notice) : (s.post n).ce = s.ce := rfl

@[simp] theorem State.post_freeIndex (s : State) (n : Notice) : (s.post n).freeIndex = s.freeIndex := rfl

@[simp] theorem State.post_pending (s : State) (n : Notice) : (s.post n).pending = s.pending := rfl

/-! ### State.postAt -/

@[simp] theorem State.postAt_now (s : State) (t : Time) (n : Notice) : (s.postAt t n).now = s.now := rfl

@[simp] theorem State.postAt_mem (s : State) (t : Time) (n : Notice) : (s.postAt t n).mem = s.mem := rfl

@[simp] theorem State.postAt_port (s : State) (t : Time) (n : Notice) : (s.postAt t n).port = s.port := rfl

@[simp] theorem State.postAt_tiu (s : State) (t : Time) (n : Notice) : (s.postAt t n).tiu = s.tiu := rfl

@[simp] theorem State.postAt_fcu (s : State) (t : Time) (n : Notice) : (s.postAt t n).fcu = s.fcu := rfl

@[simp] theorem State.postAt_ssu (s : State) (t : Time) (n : Notice) : (s.postAt t n).ssu = s.ssu := rfl

@[simp] theorem State.postAt_mu (s : State) (t : Time) (n : Notice) : (s.postAt t n).mu = s.mu := rfl

@[simp] theorem State.postAt_au (s : State) (t : Time) (n : Notice) : (s.postAt t n).au = s.au := rfl

@[simp] theorem State.postAt_pu (s : State) (t : Time) (n : Notice) : (s.postAt t n).pu = s.pu := rfl

@[simp] theorem State.postAt_ce (s : State) (t : Time) (n : Notice) : (s.postAt t n).ce = s.ce := rfl

@[simp] theorem State.postAt_freeIndex (s : State) (t : Time) (n : Notice) : (s.postAt t n).freeIndex = s.freeIndex := rfl

@[simp] theorem State.postAt_pending (s : State) (t : Time) (n : Notice) : (s.postAt t n).pending = s.pending := rfl

/-! ### State.setLevel -/

@[simp] theorem State.setLevel_now (s : State) (l : Fin 8) : (s.setLevel l).now = s.now := rfl

@[simp] theorem State.setLevel_mem (s : State) (l : Fin 8) : (s.setLevel l).mem = s.mem := rfl

@[simp] theorem State.setLevel_port (s : State) (l : Fin 8) : (s.setLevel l).port = s.port := rfl

@[simp] theorem State.setLevel_tiu (s : State) (l : Fin 8) : (s.setLevel l).tiu = s.tiu := rfl

@[simp] theorem State.setLevel_fcu (s : State) (l : Fin 8) : (s.setLevel l).fcu = s.fcu := rfl

@[simp] theorem State.setLevel_ssu (s : State) (l : Fin 8) : (s.setLevel l).ssu = s.ssu := rfl

@[simp] theorem State.setLevel_mu (s : State) (l : Fin 8) : (s.setLevel l).mu = s.mu := rfl

@[simp] theorem State.setLevel_au (s : State) (l : Fin 8) : (s.setLevel l).au = s.au := rfl

@[simp] theorem State.setLevel_hku (s : State) (l : Fin 8) : (s.setLevel l).hku = s.hku := rfl

@[simp] theorem State.setLevel_freeIndex (s : State) (l : Fin 8) : (s.setLevel l).freeIndex = s.freeIndex := rfl

@[simp] theorem State.setLevel_pending (s : State) (l : Fin 8) : (s.setLevel l).pending = s.pending := rfl

/-! ### State.updateSlot -/

@[simp] theorem State.updateSlot_now (s : State) (k : Fin 4) (g : Slot → Slot) : (s.updateSlot k g).now = s.now := rfl

@[simp] theorem State.updateSlot_mem (s : State) (k : Fin 4) (g : Slot → Slot) : (s.updateSlot k g).mem = s.mem := rfl

@[simp] theorem State.updateSlot_port (s : State) (k : Fin 4) (g : Slot → Slot) : (s.updateSlot k g).port = s.port := rfl

@[simp] theorem State.updateSlot_tiu (s : State) (k : Fin 4) (g : Slot → Slot) : (s.updateSlot k g).tiu = s.tiu := rfl

@[simp] theorem State.updateSlot_ssu (s : State) (k : Fin 4) (g : Slot → Slot) : (s.updateSlot k g).ssu = s.ssu := rfl

@[simp] theorem State.updateSlot_mu (s : State) (k : Fin 4) (g : Slot → Slot) : (s.updateSlot k g).mu = s.mu := rfl

@[simp] theorem State.updateSlot_au (s : State) (k : Fin 4) (g : Slot → Slot) : (s.updateSlot k g).au = s.au := rfl

@[simp] theorem State.updateSlot_pu (s : State) (k : Fin 4) (g : Slot → Slot) : (s.updateSlot k g).pu = s.pu := rfl

@[simp] theorem State.updateSlot_ce (s : State) (k : Fin 4) (g : Slot → Slot) : (s.updateSlot k g).ce = s.ce := rfl

@[simp] theorem State.updateSlot_hku (s : State) (k : Fin 4) (g : Slot → Slot) : (s.updateSlot k g).hku = s.hku := rfl

@[simp] theorem State.updateSlot_freeIndex (s : State) (k : Fin 4) (g : Slot → Slot) : (s.updateSlot k g).freeIndex = s.freeIndex := rfl

@[simp] theorem State.updateSlot_pending (s : State) (k : Fin 4) (g : Slot → Slot) : (s.updateSlot k g).pending = s.pending := rfl

/-! ### State.dropAccess -/

@[simp] theorem State.dropAccess_now (s : State) (p : AccessKind → Bool) : (s.dropAccess p).now = s.now := by
  unfold State.dropAccess; split <;> try split
  all_goals rfl

@[simp] theorem State.dropAccess_mem (s : State) (p : AccessKind → Bool) : (s.dropAccess p).mem = s.mem := by
  unfold State.dropAccess; split <;> try split
  all_goals rfl

@[simp] theorem State.dropAccess_tiu (s : State) (p : AccessKind → Bool) : (s.dropAccess p).tiu = s.tiu := by
  unfold State.dropAccess; split <;> try split
  all_goals rfl

@[simp] theorem State.dropAccess_fcu (s : State) (p : AccessKind → Bool) : (s.dropAccess p).fcu = s.fcu := by
  unfold State.dropAccess; split <;> try split
  all_goals rfl

@[simp] theorem State.dropAccess_ssu (s : State) (p : AccessKind → Bool) : (s.dropAccess p).ssu = s.ssu := by
  unfold State.dropAccess; split <;> try split
  all_goals rfl

@[simp] theorem State.dropAccess_mu (s : State) (p : AccessKind → Bool) : (s.dropAccess p).mu = s.mu := by
  unfold State.dropAccess; split <;> try split
  all_goals rfl

@[simp] theorem State.dropAccess_au (s : State) (p : AccessKind → Bool) : (s.dropAccess p).au = s.au := by
  unfold State.dropAccess; split <;> try split
  all_goals rfl

@[simp] theorem State.dropAccess_pu (s : State) (p : AccessKind → Bool) : (s.dropAccess p).pu = s.pu := by
  unfold State.dropAccess; split <;> try split
  all_goals rfl

@[simp] theorem State.dropAccess_ce (s : State) (p : AccessKind → Bool) : (s.dropAccess p).ce = s.ce := by
  unfold State.dropAccess; split <;> try split
  all_goals rfl

@[simp] theorem State.dropAccess_hku (s : State) (p : AccessKind → Bool) : (s.dropAccess p).hku = s.hku := by
  unfold State.dropAccess; split <;> try split
  all_goals rfl

@[simp] theorem State.dropAccess_freeIndex (s : State) (p : AccessKind → Bool) : (s.dropAccess p).freeIndex = s.freeIndex := by
  unfold State.dropAccess; split <;> try split
  all_goals rfl

@[simp] theorem State.dropAccess_pending (s : State) (p : AccessKind → Bool) : (s.dropAccess p).pending = s.pending := by
  unfold State.dropAccess; split <;> try split
  all_goals rfl

/-! ### State.arbitrate -/

@[simp] theorem State.arbitrate_now (s : State) : (s.arbitrate).now = s.now := by
  unfold State.arbitrate; repeat (first | rfl | split)

@[simp] theorem State.arbitrate_mem (s : State) : (s.arbitrate).mem = s.mem := by
  unfold State.arbitrate; repeat (first | rfl | split)

@[simp] theorem State.arbitrate_fcu (s : State) : (s.arbitrate).fcu = s.fcu := by
  unfold State.arbitrate; repeat (first | rfl | split)

@[simp] theorem State.arbitrate_ssu (s : State) : (s.arbitrate).ssu = s.ssu := by
  unfold State.arbitrate; repeat (first | rfl | split)

@[simp] theorem State.arbitrate_mu (s : State) : (s.arbitrate).mu = s.mu := by
  unfold State.arbitrate; repeat (first | rfl | split)

@[simp] theorem State.arbitrate_au (s : State) : (s.arbitrate).au = s.au := by
  unfold State.arbitrate; repeat (first | rfl | split)

@[simp] theorem State.arbitrate_pu (s : State) : (s.arbitrate).pu = s.pu := by
  unfold State.arbitrate; repeat (first | rfl | split)

@[simp] theorem State.arbitrate_ce (s : State) : (s.arbitrate).ce = s.ce := by
  unfold State.arbitrate; repeat (first | rfl | split)

@[simp] theorem State.arbitrate_hku (s : State) : (s.arbitrate).hku = s.hku := by
  unfold State.arbitrate; repeat (first | rfl | split)

@[simp] theorem State.arbitrate_freeIndex (s : State) : (s.arbitrate).freeIndex = s.freeIndex := by
  unfold State.arbitrate; repeat (first | rfl | split)

@[simp] theorem State.arbitrate_pending (s : State) : (s.arbitrate).pending = s.pending := by
  unfold State.arbitrate; repeat (first | rfl | split)

/-! ### State.settle -/

@[simp] theorem State.settle_now (s : State) : (s.settle).now = s.now := by
  simp [State.settle]

@[simp] theorem State.settle_mem (s : State) : (s.settle).mem = s.mem := by
  simp [State.settle]

@[simp] theorem State.settle_fcu (s : State) : (s.settle).fcu = s.fcu := by
  simp [State.settle]

@[simp] theorem State.settle_ssu (s : State) : (s.settle).ssu = s.ssu := by
  simp [State.settle]

@[simp] theorem State.settle_mu (s : State) : (s.settle).mu = s.mu := by
  simp [State.settle]

@[simp] theorem State.settle_au (s : State) : (s.settle).au = s.au := by
  simp [State.settle]

@[simp] theorem State.settle_pu (s : State) : (s.settle).pu = s.pu := by
  simp [State.settle]

@[simp] theorem State.settle_ce (s : State) : (s.settle).ce = s.ce := by
  simp [State.settle]

@[simp] theorem State.settle_hku (s : State) : (s.settle).hku = s.hku := by
  simp [State.settle]

@[simp] theorem State.settle_freeIndex (s : State) : (s.settle).freeIndex = s.freeIndex := by
  simp [State.settle]

@[simp] theorem State.settle_pending (s : State) : (s.settle).pending = s.pending := by
  simp [State.settle]

/-! ### State.compareProducer -/

@[simp] theorem State.compareProducer_now (s : State) : (s.compareProducer).now = s.now := by
  unfold State.compareProducer; dsimp only; repeat (first | rfl | split)

@[simp] theorem State.compareProducer_mem (s : State) : (s.compareProducer).mem = s.mem := by
  unfold State.compareProducer; dsimp only; repeat (first | rfl | split)

@[simp] theorem State.compareProducer_port (s : State) : (s.compareProducer).port = s.port := by
  unfold State.compareProducer; dsimp only; repeat (first | rfl | split)

@[simp] theorem State.compareProducer_tiu (s : State) : (s.compareProducer).tiu = s.tiu := by
  unfold State.compareProducer; dsimp only; repeat (first | rfl | split)

@[simp] theorem State.compareProducer_fcu (s : State) : (s.compareProducer).fcu = s.fcu := by
  unfold State.compareProducer; dsimp only; repeat (first | rfl | split)

@[simp] theorem State.compareProducer_ssu (s : State) : (s.compareProducer).ssu = s.ssu := by
  unfold State.compareProducer; dsimp only; repeat (first | rfl | split)

@[simp] theorem State.compareProducer_mu (s : State) : (s.compareProducer).mu = s.mu := by
  unfold State.compareProducer; dsimp only; repeat (first | rfl | split)

@[simp] theorem State.compareProducer_au (s : State) : (s.compareProducer).au = s.au := by
  unfold State.compareProducer; dsimp only; repeat (first | rfl | split)

@[simp] theorem State.compareProducer_pu (s : State) : (s.compareProducer).pu = s.pu := by
  unfold State.compareProducer; dsimp only; repeat (first | rfl | split)

@[simp] theorem State.compareProducer_ce (s : State) : (s.compareProducer).ce = s.ce := by
  unfold State.compareProducer; dsimp only; repeat (first | rfl | split)

@[simp] theorem State.compareProducer_freeIndex (s : State) : (s.compareProducer).freeIndex = s.freeIndex := by
  unfold State.compareProducer; dsimp only; repeat (first | rfl | split)

@[simp] theorem State.compareProducer_pending (s : State) : (s.compareProducer).pending = s.pending := by
  unfold State.compareProducer; dsimp only; repeat (first | rfl | split)

/-! ### State.finishTaking -/

@[simp] theorem State.finishTaking_now (s : State) : (s.finishTaking).now = s.now := by
  unfold State.finishTaking; dsimp only; split <;> simp

@[simp] theorem State.finishTaking_mem (s : State) : (s.finishTaking).mem = s.mem := by
  unfold State.finishTaking; dsimp only; split <;> simp

@[simp] theorem State.finishTaking_port (s : State) : (s.finishTaking).port = s.port := by
  unfold State.finishTaking; dsimp only; split <;> simp

@[simp] theorem State.finishTaking_tiu (s : State) : (s.finishTaking).tiu = s.tiu := by
  unfold State.finishTaking; dsimp only; split <;> simp

@[simp] theorem State.finishTaking_fcu (s : State) : (s.finishTaking).fcu = s.fcu := by
  unfold State.finishTaking; dsimp only; split <;> simp

@[simp] theorem State.finishTaking_ssu (s : State) : (s.finishTaking).ssu = s.ssu := by
  unfold State.finishTaking; dsimp only; split <;> simp

@[simp] theorem State.finishTaking_mu (s : State) : (s.finishTaking).mu = s.mu := by
  unfold State.finishTaking; dsimp only; split <;> simp

@[simp] theorem State.finishTaking_au (s : State) : (s.finishTaking).au = s.au := by
  unfold State.finishTaking; dsimp only; split <;> simp

@[simp] theorem State.finishTaking_pu (s : State) : (s.finishTaking).pu = s.pu := by
  unfold State.finishTaking; dsimp only; split <;> simp

@[simp] theorem State.finishTaking_ce (s : State) : (s.finishTaking).ce = s.ce := by
  unfold State.finishTaking; dsimp only; split <;> simp

@[simp] theorem State.finishTaking_freeIndex (s : State) : (s.finishTaking).freeIndex = s.freeIndex := by
  unfold State.finishTaking; dsimp only; split <;> simp

@[simp] theorem State.finishTaking_pending (s : State) : (s.finishTaking).pending = s.pending := by
  unfold State.finishTaking; dsimp only; split <;> simp

/-! ### State.refuse -/

@[simp] theorem State.refuse_now (s : State) (r : Record) (x : Reason) : (s.refuse r x).now = s.now := by
  simp [State.refuse]

@[simp] theorem State.refuse_mem (s : State) (r : Record) (x : Reason) : (s.refuse r x).mem = s.mem := by
  simp [State.refuse]

@[simp] theorem State.refuse_port (s : State) (r : Record) (x : Reason) : (s.refuse r x).port = s.port := by
  simp [State.refuse]

@[simp] theorem State.refuse_tiu (s : State) (r : Record) (x : Reason) : (s.refuse r x).tiu = s.tiu := by
  simp [State.refuse]

@[simp] theorem State.refuse_fcu (s : State) (r : Record) (x : Reason) : (s.refuse r x).fcu = s.fcu := by
  simp [State.refuse]

@[simp] theorem State.refuse_ssu (s : State) (r : Record) (x : Reason) : (s.refuse r x).ssu = s.ssu := by
  simp [State.refuse]

@[simp] theorem State.refuse_mu (s : State) (r : Record) (x : Reason) : (s.refuse r x).mu = s.mu := by
  simp [State.refuse]

@[simp] theorem State.refuse_au (s : State) (r : Record) (x : Reason) : (s.refuse r x).au = s.au := by
  simp [State.refuse]

@[simp] theorem State.refuse_pu (s : State) (r : Record) (x : Reason) : (s.refuse r x).pu = s.pu := by
  simp [State.refuse]

@[simp] theorem State.refuse_ce (s : State) (r : Record) (x : Reason) : (s.refuse r x).ce = s.ce := by
  simp [State.refuse]

@[simp] theorem State.refuse_freeIndex (s : State) (r : Record) (x : Reason) : (s.refuse r x).freeIndex = s.freeIndex := by
  simp [State.refuse]

@[simp] theorem State.refuse_pending (s : State) (r : Record) (x : Reason) : (s.refuse r x).pending = s.pending := by
  simp [State.refuse]

/-! ### What a settling may change in the TIU and the port -/

/-- Arbitration changes at most the service of the TIU. -/
theorem State.arbitrate_tiu (s : State) : s.arbitrate.tiu = { s.tiu with service := s.arbitrate.tiu.service } := by
  unfold State.arbitrate; repeat (first | rfl | split)

/-- The link beginning to transmit changes at most what is being transmitted. -/
theorem Tiu.startSending_eq (u : Tiu) : u.startSending = { u with sending := u.startSending.sending } := by
  unfold Tiu.startSending; repeat (first | rfl | split)

/-- A settling changes at most the service and the transmission of the TIU. -/
theorem State.settle_tiu (s : State) :
    s.settle.tiu = { s.tiu with service := s.settle.tiu.service, sending := s.settle.tiu.sending } := by
  simp only [State.settle]
  rw [Tiu.startSending_eq, State.arbitrate_tiu]

/-- A busy port stays as it is. -/
theorem State.settle_port_busy (s : State) (a : Access) (h : s.port = some a) : s.settle.port = some a := by
  simp only [State.settle, State.arbitrate, h]

end Sys2Proof.Machine
end

