-- ==== Sys2Proof/Laws/Step.lean ====
section
/-! SUPPORT. Everything the shared operations of a step can do: once here, cited by every later proof. -/

namespace Sys2Proof.Machine

/-- A command at the front of the queue runs with the queue's rest. -/
theorem step_cons (c : Instr) (rest : List Instr) (s : State) (h : s.pending = c :: rest) :
    step s = exec c { s with pending := rest } := by
  simp [step, h]

/-- On an empty queue the machine idles. -/
theorem step_idle (s : State) (h : s.pending = []) : step s = .next s := by simp [step, h]

/-- A step whose condition holds takes its effect. -/
theorem State.fire_pos (s : State) (t : Time) (f : State → State) {c : Bool} (h : c = true) :
    s.fire t c f = .next (f { s with now := t }).settle := by simp [State.fire, h]

/-- A step whose condition does not hold changes nothing. -/
theorem State.fire_neg (s : State) (t : Time) (f : State → State) {c : Bool} (h : c = false) :
    s.fire t c f = .next s := by simp [State.fire, h]

/-- Everything a conditional step can do. -/
theorem State.fire_cases {s s' : State} {t : Time} {c : Bool} {f : State → State} (h : s.fire t c f = .next s') :
    (c = false ∧ s' = s) ∨ (c = true ∧ s' = (f { s with now := t }).settle) := by
  cases c
  · exact .inl ⟨rfl, by simpa [State.fire] using h.symm⟩
  · exact .inr ⟨rfl, by simpa [State.fire] using h.symm⟩

/-! ### The grants that are due (R19) -/

@[simp] theorem State.grantFirst_busy (s : State) (a : Access) (h : s.port = some a) : s.grantFirst = s := by
  simp [State.grantFirst, State.audioMayGo, h]

/-- Behind a busy port no grant is due. -/
@[simp] theorem State.granted_busy (s : State) (a : Access) (h : s.port = some a) : s.granted = s := by
  simp [State.granted, State.grantFirst_busy s a h]

/-- A motion grant makes an access. -/
theorem State.grantMotion_port (s : State) (w : MotionWork) : ∃ a, (s.grantMotion w).port = some a := by
  cases w <;> exact ⟨_, rfl⟩

/-- A housekeeping grant makes an access, but for the read of a command record. -/
theorem State.grantHousekeeping_port (s : State) (w : HousekeepingWork) (h : w ≠ .commandRecord) :
    ∃ a, (s.grantHousekeeping w).port = some a := by
  cases w <;> first | exact ⟨_, rfl⟩ | exact absurd rfl h

/-- A copy grant makes an access or changes nothing. -/
theorem State.grantCopy_cases (s : State) : s.grantCopy = s ∨ ∃ a, s.grantCopy = { s with port := some a } := by
  unfold State.grantCopy
  split
  · split
    · exact .inl rfl
    · exact .inr ⟨_, rfl⟩
  · exact .inl rfl

/-- Everything one grant can do: nothing, an access at the port, or the read of a command record, which leaves the port free and
comes when no client but the copy client has anything else due. -/
theorem State.grantFirst_cases (s : State) :
    s.grantFirst = s ∨ (∃ a, s.grantFirst.port = some a) ∨
    (s.grantFirst = s.grantHousekeeping .commandRecord ∧ s.audioMayGo = true ∧ s.au.waiting = [] ∧
      s.inboundWaiting = false ∧ s.mu.pub.due = none ∧ s.housekeepingDue = some .commandRecord) := by
  cases go : s.audioMayGo
  · exact .inl (by simp [State.grantFirst, go])
  · cases ha : s.au.waiting with
    | cons a rest =>
      have h : s.grantFirst = s.grantAudio := by simp only [State.grantFirst, go, ha, if_true]
      exact .inr (.inl ⟨s.au.access a, by simp [h, State.grantAudio, ha]⟩)
    | nil =>
      cases hi : s.inboundWaiting with
      | true => exact .inl (by simp only [State.grantFirst, go, ha, hi, if_true])
      | false =>
        cases hm : s.mu.pub.due with
        | some w =>
          have h : s.grantFirst = s.grantMotion w := by simp only [State.grantFirst, go, ha, hi, hm, if_true]
          exact .inr (.inl (h ▸ s.grantMotion_port w))
        | none =>
          cases hh : s.housekeepingDue with
          | some w =>
            have h : s.grantFirst = s.grantHousekeeping w := by simp only [State.grantFirst, go, ha, hi, hm, hh, if_true]
            by_cases hw : w = .commandRecord
            · subst hw; exact .inr (.inr ⟨h, rfl, rfl, rfl, rfl, rfl⟩)
            · exact .inr (.inl (h ▸ s.grantHousekeeping_port w hw))
          | none =>
            have h : s.grantFirst = s.grantCopy := by simp only [State.grantFirst, go, ha, hi, hm, hh, if_true]
            rcases s.grantCopy_cases with e | ⟨a, e⟩
            · exact .inl (h.trans e)
            · exact .inr (.inl ⟨a, by rw [h, e]⟩)

/-- When the read of a command record is due, nothing of the housekeeping client is due behind it. -/
theorem State.housekeepingDue_record (s : State) (r : Record) (h : s.housekeepingDue = some .commandRecord) :
    { s with hku.work := .taking r }.housekeepingDue = none := by
  simp only [State.housekeepingDue, State.reportDue, Hku.commandDue] at h ⊢
  repeat' split at h
  all_goals simp_all

/-- With every due grant made none is due. -/
@[simp] theorem State.granted_granted (s : State) : s.granted.granted = s.granted := by
  have key : s.granted.grantFirst = s.granted := by
    rcases s.grantFirst_cases with h | ⟨a, h⟩ | ⟨h, go, hw, hi, hd, hh⟩
    · simp only [State.granted, h]
    · simp only [State.granted, State.grantFirst_busy _ a h]
    · have hh' := s.housekeepingDue_record (recordOf (s.mem.readBytes (recordAddr s.hku.consumer) 32)) hh
      have ht : s.grantFirst.grantFirst = s.grantFirst.grantCopy := by
        rw [h]
        simp only [State.grantHousekeeping] at hh' ⊢
        generalize ht : ({ s with hku.work := .taking _ } : State) = u at hh' ⊢
        have h1 : u.audioMayGo = true := by subst ht; exact go
        have h2 : u.au.waiting = [] := by subst ht; exact hw
        have h3 : u.inboundWaiting = false := by subst ht; exact hi
        have h4 : u.mu.pub.due = none := by subst ht; exact hd
        simp only [State.grantFirst, h1, h2, h3, h4, hh', if_true]
      rcases s.grantFirst.grantCopy_cases with e | ⟨a, e⟩
      · rw [State.granted, ht, e, ht, e]
      · rw [State.granted, ht, e]
        exact State.grantFirst_busy _ a rfl
  rw [State.granted, key, key]

/-- What a grant leaves alone: it makes one access, of what its client has due, and touches no memory. -/
theorem State.grantFirst_frame (s : State) :
    s.grantFirst.now = s.now ∧ s.grantFirst.mem = s.mem ∧ s.grantFirst.tiu = s.tiu ∧ s.grantFirst.ssu = s.ssu ∧
    s.grantFirst.pu = s.pu ∧ s.grantFirst.ce = s.ce ∧ s.grantFirst.freeIndex = s.freeIndex ∧
    s.grantFirst.pending = s.pending ∧ s.grantFirst.mu = { s.mu with pub := s.grantFirst.mu.pub } ∧
    s.grantFirst.au = { s.au with waiting := s.grantFirst.au.waiting } ∧
    s.grantFirst.fcu = { s.fcu with slots := s.grantFirst.fcu.slots } := by
  unfold State.grantFirst State.grantAudio State.grantMotion State.grantHousekeeping State.grantCopy State.updateSlot Fcu.update
  refine ⟨?_, ?_, ?_, ?_, ?_, ?_, ?_, ?_, ?_, ?_, ?_⟩ <;> (repeat' (first | rfl | split))

@[simp] theorem State.granted_now (s : State) : s.granted.now = s.now := by
  simp [State.granted, State.grantFirst_frame]

@[simp] theorem State.granted_mem (s : State) : s.granted.mem = s.mem := by
  simp [State.granted, State.grantFirst_frame]

@[simp] theorem State.granted_tiu (s : State) : s.granted.tiu = s.tiu := by
  simp [State.granted, State.grantFirst_frame]

@[simp] theorem State.granted_ssu (s : State) : s.granted.ssu = s.ssu := by
  simp [State.granted, State.grantFirst_frame]

@[simp] theorem State.granted_pu (s : State) : s.granted.pu = s.pu := by
  simp [State.granted, State.grantFirst_frame]

@[simp] theorem State.granted_ce (s : State) : s.granted.ce = s.ce := by
  simp [State.granted, State.grantFirst_frame]

@[simp] theorem State.granted_freeIndex (s : State) : s.granted.freeIndex = s.freeIndex := by
  simp [State.granted, State.grantFirst_frame]

@[simp] theorem State.granted_pending (s : State) : s.granted.pending = s.pending := by
  simp [State.granted, State.grantFirst_frame]

/-- A grant changes of the MU only what it publishes. -/
theorem State.granted_mu (s : State) : s.granted.mu = { s.mu with pub := s.granted.mu.pub } := by
  rw [State.granted, (State.grantFirst_frame s.grantFirst).2.2.2.2.2.2.2.2.1, (State.grantFirst_frame s).2.2.2.2.2.2.2.2.1]

/-- A grant changes of the AU only the accesses that wait. -/
theorem State.granted_au (s : State) : s.granted.au = { s.au with waiting := s.granted.au.waiting } := by
  rw [State.granted, (State.grantFirst_frame s.grantFirst).2.2.2.2.2.2.2.2.2.1, (State.grantFirst_frame s).2.2.2.2.2.2.2.2.2.1]

/-- A grant changes of the FCU only slot records. -/
theorem State.granted_fcu (s : State) : s.granted.fcu = { s.fcu with slots := s.granted.fcu.slots } := by
  rw [State.granted, (State.grantFirst_frame s.grantFirst).2.2.2.2.2.2.2.2.2.2, (State.grantFirst_frame s).2.2.2.2.2.2.2.2.2.2]

/-- A grant leaves the part's settings, layout and ring state. -/
theorem State.grantFirst_hku (s : State) :
    s.grantFirst.hku = { s.hku with
      work := s.grantFirst.hku.work
      consumerDue := s.grantFirst.hku.consumerDue
      statusDue := s.grantFirst.hku.statusDue
      statusRest := s.grantFirst.hku.statusRest
      statusCount := s.grantFirst.hku.statusCount
      permit := s.grantFirst.hku.permit } := by
  unfold State.grantFirst State.grantAudio State.grantMotion State.grantHousekeeping State.grantCopy State.updateSlot Fcu.update
  repeat' (first | rfl | split)

@[simp] theorem State.granted_settings (s : State) : s.granted.hku.settings = s.hku.settings := by
  rw [State.granted, State.grantFirst_hku s.grantFirst, State.grantFirst_hku s]

@[simp] theorem State.granted_layout (s : State) : s.granted.hku.layout = s.hku.layout := by
  rw [State.granted, State.grantFirst_hku s.grantFirst, State.grantFirst_hku s]

@[simp] theorem State.granted_part (s : State) : s.granted.hku.part = s.hku.part := by
  rw [State.granted, State.grantFirst_hku s.grantFirst, State.grantFirst_hku s]

/-! ### The shared operations of a step -/

/-- An access of the selected kind inside DRAM completes. -/
theorem State.portDone_pos {α : Type} (s : State) (t : Time) (select : AccessKind → Option α)
    (k : α → Bool → List Byte → State → State) (a : Access) (x : α) (hp : s.port = some a)
    (hx : select a.kind = some x) (hd : a.stop ≤ Config.dramSize) :
    s.portDone t select k = .next (k x a.live (a.fetch s.mem) (s.served t a)).settle := by
  simp [State.portDone, hp, hx, hd]

/-- Everything a completion can do when it answers a next state. -/
theorem State.portDone_cases {α : Type} {s s' : State} {t : Time} {select : AccessKind → Option α}
    {k : α → Bool → List Byte → State → State} (h : s.portDone t select k = .next s') :
    s' = s.granted ∨ ∃ a x, s.granted.port = some a ∧ select a.kind = some x ∧ a.stop ≤ Config.dramSize ∧
      s' = (k x a.live (a.fetch s.mem) (s.granted.served t a)).settle := by
  unfold State.portDone at h
  dsimp only at h
  split at h
  · exact .inl (by simpa using h.symm)
  · split at h
    · exact .inl (by simpa using h.symm)
    · rename_i a ha _ x hx
      split at h
      · rename_i hd
        exact .inr ⟨a, x, ha, hx, hd, by simpa using h.symm⟩
      · exact absurd h (by simp)

/-- An event that falls together with the grants due, or with none due, is taken in the state as it stands. -/
theorem State.beforeEvent_eq {s : State} {t : Time} (h : s.granted = s ∨ t = s.now) : s.beforeEvent t = s := by
  unfold State.beforeEvent; split
  · rfl
  · exact h.resolve_right ‹_›

/-- The two states in which an event can be taken. -/
theorem State.beforeEvent_cases (s : State) (t : Time) : s.beforeEvent t = s ∨ s.beforeEvent t = s.granted := by
  unfold State.beforeEvent; split <;> simp

@[simp] theorem State.beforeEvent_tiu (s : State) (t : Time) : (s.beforeEvent t).tiu = s.tiu := by
  rcases s.beforeEvent_cases t with h | h <;> simp [h]

@[simp] theorem State.beforeEvent_mem (s : State) (t : Time) : (s.beforeEvent t).mem = s.mem := by
  rcases s.beforeEvent_cases t with h | h <;> simp [h]

/-- An event at a later time comes after the grants due. -/
theorem State.beforeEvent_later {s : State} {t : Time} (h : t ≠ s.now) : s.beforeEvent t = s.granted := if_neg h

/-- A record that has been read is taken in the state as it stands when it falls together with the grants due, or none is due. -/
theorem State.beforeTaking_eq {s : State} {t : Time} {r : Record} (h : s.granted = s ∨ t = s.now)
    (hw : s.hku.work = .taking r) : s.beforeTaking t = s := by
  simp only [State.beforeTaking, hw, State.beforeEvent_eq h]

/-- The two states in which a record can be taken. -/
theorem State.beforeTaking_cases (s : State) (t : Time) : s.beforeTaking t = s ∨ s.beforeTaking t = s.granted := by
  unfold State.beforeTaking; split
  · exact s.beforeEvent_cases t
  all_goals exact .inr rfl

/-- A record taken at a later time, or not yet read, comes after the grants due. -/
theorem State.beforeTaking_later {s : State} {t : Time} (h : t ≠ s.now ∨ ∀ r, s.hku.work ≠ .taking r) :
    s.beforeTaking t = s.granted := by
  unfold State.beforeTaking; split
  · rename_i r hw
    exact State.beforeEvent_later (h.resolve_right fun hr => hr r hw)
  all_goals rfl

/-- A record whose code the step is about is taken. -/
theorem State.takeRecord_pos (s : State) (t : Time) (isCode : Half → Bool) (k : Record → State → State) (r : Record)
    (hg : s.granted = s ∨ t = s.now) (hw : s.hku.work = .taking r) (hc : isCode r.code = true) :
    s.takeRecord t isCode k = .next (k r { s with now := t }).settle := by
  simp [State.takeRecord, State.beforeTaking_eq hg hw, hw, hc, State.fire]

/-- Everything the taking of a record can do. -/
theorem State.takeRecord_cases {s s' : State} {t : Time} {isCode : Half → Bool} {k : Record → State → State}
    (h : s.takeRecord t isCode k = .next s') :
    s' = s.granted ∨ ∃ r, (s.beforeTaking t).hku.work = .taking r ∧ isCode r.code = true ∧
      s' = (k r { s.beforeTaking t with now := t }).settle := by
  unfold State.takeRecord at h
  dsimp only at h
  split at h
  · rename_i r hw
    split at h
    · rename_i hc
      rcases State.fire_cases h with ⟨hf, _⟩ | ⟨_, h⟩
      · simp at hf
      · exact .inr ⟨r, hw, hc, h⟩
    · exact .inl (by simpa using h.symm)
  all_goals exact .inl (by simpa using h.symm)

/-- The event at the head of those raised is taken. -/
theorem State.takeEvent_pos {α : Type} (s : State) (t : Time) (select : Watched → Option α)
    (k : α → Word → State → State) (w : Watched) (v : Word) (rest : List (Watched × Word)) (x : α)
    (hg : s.granted = s ∨ t = s.now) (hs : s.tiu.service = .raising ((w, v) :: rest)) (hx : select w = some x) :
    s.takeEvent t select k = .next (k x v { s with now := t, tiu.service := serviceOf rest }).settle := by
  simp [State.takeEvent, State.beforeEvent_eq hg, hs, hx, State.fire]

/-- Everything the taking of an event can do. -/
theorem State.takeEvent_cases {α : Type} {s s' : State} {t : Time} {select : Watched → Option α}
    {k : α → Word → State → State} (h : s.takeEvent t select k = .next s') :
    s' = s.granted ∨ ∃ w v rest x, s.tiu.service = .raising ((w, v) :: rest) ∧ select w = some x ∧
      s' = (k x v { s.beforeEvent t with now := t, tiu.service := serviceOf rest }).settle := by
  unfold State.takeEvent at h
  split at h
  · rename_i w v rest hs
    split at h
    · rename_i x hx
      rcases State.fire_cases h with ⟨hc, _⟩ | ⟨_, h⟩
      · simp at hc
      · exact .inr ⟨w, v, rest, x, hs, hx, h⟩
    · exact .inl (by simpa using h.symm)
  all_goals exact .inl (by simpa using h.symm)

/-- A notice with room takes the next position and joins the write list. -/
theorem Hku.post_room (h : Hku) (t : Time) (n : Notice)
    (room : (h.noticeProducer - h.noticeConsumer).toNat < Config.noticeLimit) :
    h.post t n = { h with
      noticeProducer := h.noticeProducer + 1
      writeList := h.writeList ++ [⟨h.noticeProducer.toNat % 64, t, n⟩] } := by
  unfold Hku.post; rw [if_pos room]

/-- A notice that finds the queue full is dropped and counted. -/
theorem Hku.post_full (h : Hku) (t : Time) (n : Notice)
    (full : ¬ (h.noticeProducer - h.noticeConsumer).toNat < Config.noticeLimit) :
    h.post t n = { h with counters.noticesLost := h.counters.noticesLost + 1 } := by
  unfold Hku.post; rw [if_neg full]

end Sys2Proof.Machine
end

