-- ==== Sys2Proof/Laws/Frames.lean ====
section
/-! SUPPORT. What each operation over State leaves alone, once for each. -/

set_option linter.unusedTactic false
set_option linter.unreachableTactic false

namespace Sys2Proof.Machine

/-- `noteRefused` may change only the HKU. -/
@[simp] theorem State.noteRefused_frame (s : State) (a : Word) (b : Nat) :
    (s.noteRefused a b).now = s.now ∧ (s.noteRefused a b).mem = s.mem ∧ (s.noteRefused a b).port = s.port ∧
    (s.noteRefused a b).tiu = s.tiu ∧ (s.noteRefused a b).fcu = s.fcu ∧ (s.noteRefused a b).ssu = s.ssu ∧
    (s.noteRefused a b).mu = s.mu ∧ (s.noteRefused a b).au = s.au ∧ (s.noteRefused a b).pu = s.pu ∧
    (s.noteRefused a b).ce = s.ce ∧ (s.noteRefused a b).freeIndex = s.freeIndex ∧
    (s.noteRefused a b).pending = s.pending := by
  refine ⟨?_, ?_, ?_, ?_, ?_, ?_, ?_, ?_, ?_, ?_, ?_, ?_⟩ <;> first | rfl |
    (unfold State.noteRefused; (try dsimp only); repeat' (first | rfl | (simp; done) | split))

/-- `takeWrite` may change only the tether and the HKU. -/
@[simp] theorem State.takeWrite_frame (s : State) (a : Word) (b : Nat) (c : List Byte) :
    (s.takeWrite a b c).now = s.now ∧ (s.takeWrite a b c).mem = s.mem ∧ (s.takeWrite a b c).port = s.port ∧
    (s.takeWrite a b c).fcu = s.fcu ∧ (s.takeWrite a b c).ssu = s.ssu ∧ (s.takeWrite a b c).mu = s.mu ∧
    (s.takeWrite a b c).au = s.au ∧ (s.takeWrite a b c).pu = s.pu ∧ (s.takeWrite a b c).ce = s.ce ∧
    (s.takeWrite a b c).freeIndex = s.freeIndex ∧ (s.takeWrite a b c).pending = s.pending := by
  refine ⟨?_, ?_, ?_, ?_, ?_, ?_, ?_, ?_, ?_, ?_, ?_⟩ <;> first | rfl |
    (unfold State.takeWrite; (try dsimp only); repeat' (first | rfl | (simp; done) | split))

/-- `discardMessage` may change only the HKU. -/
@[simp] theorem State.discardMessage_frame (s : State) :
    s.discardMessage.now = s.now ∧ s.discardMessage.mem = s.mem ∧ s.discardMessage.port = s.port ∧
    s.discardMessage.tiu = s.tiu ∧ s.discardMessage.fcu = s.fcu ∧ s.discardMessage.ssu = s.ssu ∧
    s.discardMessage.mu = s.mu ∧ s.discardMessage.au = s.au ∧ s.discardMessage.pu = s.pu ∧
    s.discardMessage.ce = s.ce ∧ s.discardMessage.freeIndex = s.freeIndex ∧ s.discardMessage.pending = s.pending := by
  refine ⟨?_, ?_, ?_, ?_, ?_, ?_, ?_, ?_, ?_, ?_, ?_, ?_⟩ <;> first | rfl |
    (unfold State.discardMessage; (try dsimp only); repeat' (first | rfl | (simp; done) | split))

/-- `arriveWrite` may change only the tether and the HKU. -/
@[simp] theorem State.arriveWrite_frame (s : State) (a : Word) (b : Nat) (c : List Byte) :
    (s.arriveWrite a b c).now = s.now ∧ (s.arriveWrite a b c).mem = s.mem ∧ (s.arriveWrite a b c).port = s.port ∧
    (s.arriveWrite a b c).fcu = s.fcu ∧ (s.arriveWrite a b c).ssu = s.ssu ∧ (s.arriveWrite a b c).mu = s.mu ∧
    (s.arriveWrite a b c).au = s.au ∧ (s.arriveWrite a b c).pu = s.pu ∧ (s.arriveWrite a b c).ce = s.ce ∧
    (s.arriveWrite a b c).freeIndex = s.freeIndex ∧ (s.arriveWrite a b c).pending = s.pending := by
  refine ⟨?_, ?_, ?_, ?_, ?_, ?_, ?_, ?_, ?_, ?_, ?_⟩ <;> first | rfl |
    (unfold State.arriveWrite; (try dsimp only); repeat' (first | rfl | (simp; done) | split))

/-- `arriveRead` may change only the tether. -/
@[simp] theorem State.arriveRead_frame (s : State) (a : Word) (b : Nat) (c : Fin 32) :
    (s.arriveRead a b c).now = s.now ∧ (s.arriveRead a b c).mem = s.mem ∧ (s.arriveRead a b c).port = s.port ∧
    (s.arriveRead a b c).fcu = s.fcu ∧ (s.arriveRead a b c).ssu = s.ssu ∧ (s.arriveRead a b c).mu = s.mu ∧
    (s.arriveRead a b c).au = s.au ∧ (s.arriveRead a b c).pu = s.pu ∧ (s.arriveRead a b c).ce = s.ce ∧
    (s.arriveRead a b c).hku = s.hku ∧ (s.arriveRead a b c).freeIndex = s.freeIndex ∧
    (s.arriveRead a b c).pending = s.pending := by
  refine ⟨?_, ?_, ?_, ?_, ?_, ?_, ?_, ?_, ?_, ?_, ?_, ?_⟩ <;> first | rfl |
    (unfold State.arriveRead; (try dsimp only); repeat' (first | rfl | (simp; done) | split))

/-- `takeProducer` may change only the HKU. -/
@[simp] theorem State.takeProducer_frame (s : State) (v : Word) :
    (s.takeProducer v).now = s.now ∧ (s.takeProducer v).mem = s.mem ∧ (s.takeProducer v).port = s.port ∧
    (s.takeProducer v).tiu = s.tiu ∧ (s.takeProducer v).fcu = s.fcu ∧ (s.takeProducer v).ssu = s.ssu ∧
    (s.takeProducer v).mu = s.mu ∧ (s.takeProducer v).au = s.au ∧ (s.takeProducer v).pu = s.pu ∧
    (s.takeProducer v).ce = s.ce ∧ (s.takeProducer v).freeIndex = s.freeIndex ∧
    (s.takeProducer v).pending = s.pending := by
  refine ⟨?_, ?_, ?_, ?_, ?_, ?_, ?_, ?_, ?_, ?_, ?_, ?_⟩ <;> first | rfl |
    (unfold State.takeProducer; (try dsimp only); repeat' (first | rfl | (simp; done) | split))

/-- `takeCaptureConsumer` may change only the AU and the free value counter. -/
@[simp] theorem State.takeCaptureConsumer_frame (s : State) (v : Word) :
    (s.takeCaptureConsumer v).now = s.now ∧ (s.takeCaptureConsumer v).mem = s.mem ∧
    (s.takeCaptureConsumer v).port = s.port ∧ (s.takeCaptureConsumer v).tiu = s.tiu ∧
    (s.takeCaptureConsumer v).fcu = s.fcu ∧ (s.takeCaptureConsumer v).ssu = s.ssu ∧
    (s.takeCaptureConsumer v).mu = s.mu ∧ (s.takeCaptureConsumer v).pu = s.pu ∧ (s.takeCaptureConsumer v).ce = s.ce ∧
    (s.takeCaptureConsumer v).hku = s.hku ∧ (s.takeCaptureConsumer v).pending = s.pending := by
  refine ⟨?_, ?_, ?_, ?_, ?_, ?_, ?_, ?_, ?_, ?_, ?_⟩ <;> first | rfl |
    (unfold State.takeCaptureConsumer; (try dsimp only); repeat' (first | rfl | (simp; done) | split))

/-- `takeCueRequest` may change only the AU and the HKU. -/
@[simp] theorem State.takeCueRequest_frame (s : State) (v : Word) :
    (s.takeCueRequest v).now = s.now ∧ (s.takeCueRequest v).mem = s.mem ∧ (s.takeCueRequest v).port = s.port ∧
    (s.takeCueRequest v).tiu = s.tiu ∧ (s.takeCueRequest v).fcu = s.fcu ∧ (s.takeCueRequest v).ssu = s.ssu ∧
    (s.takeCueRequest v).mu = s.mu ∧ (s.takeCueRequest v).pu = s.pu ∧ (s.takeCueRequest v).ce = s.ce ∧
    (s.takeCueRequest v).freeIndex = s.freeIndex ∧ (s.takeCueRequest v).pending = s.pending := by
  refine ⟨?_, ?_, ?_, ?_, ?_, ?_, ?_, ?_, ?_, ?_, ?_⟩ <;> first | rfl |
    (unfold State.takeCueRequest; (try dsimp only); repeat' (first | rfl | (simp; done) | split))

/-- `applyLayout` may change only the FCU, the AU and the HKU. -/
@[simp] theorem State.applyLayout_frame (s : State) (l : Layout) :
    (s.applyLayout l).now = s.now ∧ (s.applyLayout l).mem = s.mem ∧ (s.applyLayout l).port = s.port ∧
    (s.applyLayout l).tiu = s.tiu ∧ (s.applyLayout l).ssu = s.ssu ∧ (s.applyLayout l).mu = s.mu ∧
    (s.applyLayout l).pu = s.pu ∧ (s.applyLayout l).ce = s.ce ∧ (s.applyLayout l).freeIndex = s.freeIndex ∧
    (s.applyLayout l).pending = s.pending := by
  refine ⟨?_, ?_, ?_, ?_, ?_, ?_, ?_, ?_, ?_, ?_⟩ <;> first | rfl |
    (unfold State.applyLayout; (try dsimp only); repeat' (first | rfl | (simp; done) | split))

/-- `checkTable` may change only the FCU, the AU and the HKU. -/
@[simp] theorem State.checkTable_frame (s : State) (r : Record) (l : Layout) :
    (s.checkTable r l).now = s.now ∧ (s.checkTable r l).mem = s.mem ∧ (s.checkTable r l).port = s.port ∧
    (s.checkTable r l).tiu = s.tiu ∧ (s.checkTable r l).ssu = s.ssu ∧ (s.checkTable r l).mu = s.mu ∧
    (s.checkTable r l).pu = s.pu ∧ (s.checkTable r l).ce = s.ce ∧ (s.checkTable r l).freeIndex = s.freeIndex ∧
    (s.checkTable r l).pending = s.pending := by
  refine ⟨?_, ?_, ?_, ?_, ?_, ?_, ?_, ?_, ?_, ?_⟩ <;> first | rfl |
    (unfold State.checkTable; (try dsimp only); repeat' (first | rfl | (simp; done) | split))

/-- `restart` may change only the port, the FCU, the SSU, the MU, the AU, the PU, the CE and the HKU. -/
@[simp] theorem State.restart_frame (s : State) (r : Record) :
    (s.restart r).now = s.now ∧ (s.restart r).mem = s.mem ∧ (s.restart r).tiu = s.tiu ∧
    (s.restart r).freeIndex = s.freeIndex ∧ (s.restart r).pending = s.pending := by
  refine ⟨?_, ?_, ?_, ?_, ?_⟩ <;> first | rfl |
    (unfold State.restart; (try dsimp only); repeat' (first | rfl | (simp; done) | split))

/-- `finishRestart` may change only the HKU. -/
@[simp] theorem State.finishRestart_frame (s : State) :
    s.finishRestart.now = s.now ∧ s.finishRestart.mem = s.mem ∧ s.finishRestart.port = s.port ∧
    s.finishRestart.tiu = s.tiu ∧ s.finishRestart.fcu = s.fcu ∧ s.finishRestart.ssu = s.ssu ∧
    s.finishRestart.mu = s.mu ∧ s.finishRestart.au = s.au ∧ s.finishRestart.pu = s.pu ∧ s.finishRestart.ce = s.ce ∧
    s.finishRestart.freeIndex = s.freeIndex ∧ s.finishRestart.pending = s.pending := by
  refine ⟨?_, ?_, ?_, ?_, ?_, ?_, ?_, ?_, ?_, ?_, ?_, ?_⟩ <;> first | rfl |
    (unfold State.finishRestart; (try dsimp only); repeat' (first | rfl | (simp; done) | split))

/-- `takeCeiling` may change only the PU, the CE and the HKU. -/
@[simp] theorem State.takeCeiling_frame (s : State) (c : Fin 8) :
    (s.takeCeiling c).now = s.now ∧ (s.takeCeiling c).mem = s.mem ∧ (s.takeCeiling c).port = s.port ∧
    (s.takeCeiling c).tiu = s.tiu ∧ (s.takeCeiling c).fcu = s.fcu ∧ (s.takeCeiling c).ssu = s.ssu ∧
    (s.takeCeiling c).mu = s.mu ∧ (s.takeCeiling c).au = s.au ∧ (s.takeCeiling c).freeIndex = s.freeIndex ∧
    (s.takeCeiling c).pending = s.pending := by
  refine ⟨?_, ?_, ?_, ?_, ?_, ?_, ?_, ?_, ?_, ?_⟩ <;> first | rfl |
    (unfold State.takeCeiling; (try dsimp only); repeat' (first | rfl | (simp; done) | split))

/-- `testVoltage` may change only the PU, the CE and the HKU. -/
@[simp] theorem State.testVoltage_frame (s : State) (a b : Nat) :
    (s.testVoltage a b).now = s.now ∧ (s.testVoltage a b).mem = s.mem ∧ (s.testVoltage a b).port = s.port ∧
    (s.testVoltage a b).tiu = s.tiu ∧ (s.testVoltage a b).fcu = s.fcu ∧ (s.testVoltage a b).ssu = s.ssu ∧
    (s.testVoltage a b).mu = s.mu ∧ (s.testVoltage a b).au = s.au ∧ (s.testVoltage a b).freeIndex = s.freeIndex ∧
    (s.testVoltage a b).pending = s.pending := by
  refine ⟨?_, ?_, ?_, ?_, ?_, ?_, ?_, ?_, ?_, ?_⟩ <;> first | rfl |
    (unfold State.testVoltage; (try dsimp only); repeat' (first | rfl | (simp; done) | split))

/-- `stepLevel` may change only the PU, the CE and the HKU. -/
@[simp] theorem State.stepLevel_frame (s : State) (l : Fin 8) (c : LevelCause) :
    (s.stepLevel l c).now = s.now ∧ (s.stepLevel l c).mem = s.mem ∧ (s.stepLevel l c).port = s.port ∧
    (s.stepLevel l c).tiu = s.tiu ∧ (s.stepLevel l c).fcu = s.fcu ∧ (s.stepLevel l c).ssu = s.ssu ∧
    (s.stepLevel l c).mu = s.mu ∧ (s.stepLevel l c).au = s.au ∧ (s.stepLevel l c).freeIndex = s.freeIndex ∧
    (s.stepLevel l c).pending = s.pending := by
  refine ⟨?_, ?_, ?_, ?_, ?_, ?_, ?_, ?_, ?_, ?_⟩ <;> first | rfl |
    (unfold State.stepLevel; (try dsimp only); repeat' (first | rfl | (simp; done) | split))

/-- `overWindow` may change only the PU, the CE and the HKU. -/
@[simp] theorem State.overWindow_frame (s : State) :
    s.overWindow.now = s.now ∧ s.overWindow.mem = s.mem ∧ s.overWindow.port = s.port ∧ s.overWindow.tiu = s.tiu ∧
    s.overWindow.fcu = s.fcu ∧ s.overWindow.ssu = s.ssu ∧ s.overWindow.mu = s.mu ∧ s.overWindow.au = s.au ∧
    s.overWindow.freeIndex = s.freeIndex ∧ s.overWindow.pending = s.pending := by
  refine ⟨?_, ?_, ?_, ?_, ?_, ?_, ?_, ?_, ?_, ?_⟩ <;> first | rfl |
    (unfold State.overWindow; (try dsimp only); repeat' (first | rfl | (simp; done) | split))

/-- `underWindow` may change only the PU, the CE and the HKU. -/
@[simp] theorem State.underWindow_frame (s : State) :
    s.underWindow.now = s.now ∧ s.underWindow.mem = s.mem ∧ s.underWindow.port = s.port ∧ s.underWindow.tiu = s.tiu ∧
    s.underWindow.fcu = s.fcu ∧ s.underWindow.ssu = s.ssu ∧ s.underWindow.mu = s.mu ∧ s.underWindow.au = s.au ∧
    s.underWindow.freeIndex = s.freeIndex ∧ s.underWindow.pending = s.pending := by
  refine ⟨?_, ?_, ?_, ?_, ?_, ?_, ?_, ?_, ?_, ?_⟩ <;> first | rfl |
    (unfold State.underWindow; (try dsimp only); repeat' (first | rfl | (simp; done) | split))

/-- `endWindow` may change only the PU, the CE and the HKU. -/
@[simp] theorem State.endWindow_frame (s : State) :
    s.endWindow.now = s.now ∧ s.endWindow.mem = s.mem ∧ s.endWindow.port = s.port ∧ s.endWindow.tiu = s.tiu ∧
    s.endWindow.fcu = s.fcu ∧ s.endWindow.ssu = s.ssu ∧ s.endWindow.mu = s.mu ∧ s.endWindow.au = s.au ∧
    s.endWindow.freeIndex = s.freeIndex ∧ s.endWindow.pending = s.pending := by
  refine ⟨?_, ?_, ?_, ?_, ?_, ?_, ?_, ?_, ?_, ?_⟩ <;> first | rfl |
    (unfold State.endWindow; (try dsimp only); repeat' (first | rfl | (simp; done) | split))

/-- `takeSample` may change only the PU, the CE and the HKU. -/
@[simp] theorem State.takeSample_frame (s : State) (r : MonitorReading) :
    (s.takeSample r).now = s.now ∧ (s.takeSample r).mem = s.mem ∧ (s.takeSample r).port = s.port ∧
    (s.takeSample r).tiu = s.tiu ∧ (s.takeSample r).fcu = s.fcu ∧ (s.takeSample r).ssu = s.ssu ∧
    (s.takeSample r).mu = s.mu ∧ (s.takeSample r).au = s.au ∧ (s.takeSample r).freeIndex = s.freeIndex ∧
    (s.takeSample r).pending = s.pending := by
  refine ⟨?_, ?_, ?_, ?_, ?_, ?_, ?_, ?_, ?_, ?_⟩ <;> first | rfl |
    (unfold State.takeSample; (try dsimp only); repeat' (first | rfl | (simp; done) | split))

/-- `grantHousekeeping` may change only the port, the FCU and the HKU. -/
@[simp] theorem State.grantHousekeeping_frame (s : State) (w : HousekeepingWork) :
    (s.grantHousekeeping w).now = s.now ∧ (s.grantHousekeeping w).mem = s.mem ∧ (s.grantHousekeeping w).tiu = s.tiu ∧
    (s.grantHousekeeping w).ssu = s.ssu ∧ (s.grantHousekeeping w).mu = s.mu ∧ (s.grantHousekeeping w).au = s.au ∧
    (s.grantHousekeeping w).pu = s.pu ∧ (s.grantHousekeeping w).ce = s.ce ∧
    (s.grantHousekeeping w).freeIndex = s.freeIndex ∧ (s.grantHousekeeping w).pending = s.pending := by
  refine ⟨?_, ?_, ?_, ?_, ?_, ?_, ?_, ?_, ?_, ?_⟩ <;> first | rfl |
    (unfold State.grantHousekeeping; (try dsimp only); repeat' (first | rfl | (simp; done) | split))

/-- `grantMotion` may change only the port and the MU. -/
@[simp] theorem State.grantMotion_frame (s : State) (w : MotionWork) :
    (s.grantMotion w).now = s.now ∧ (s.grantMotion w).mem = s.mem ∧ (s.grantMotion w).tiu = s.tiu ∧
    (s.grantMotion w).fcu = s.fcu ∧ (s.grantMotion w).ssu = s.ssu ∧ (s.grantMotion w).au = s.au ∧
    (s.grantMotion w).pu = s.pu ∧ (s.grantMotion w).ce = s.ce ∧ (s.grantMotion w).hku = s.hku ∧
    (s.grantMotion w).freeIndex = s.freeIndex ∧ (s.grantMotion w).pending = s.pending := by
  refine ⟨?_, ?_, ?_, ?_, ?_, ?_, ?_, ?_, ?_, ?_, ?_⟩ <;> first | rfl |
    (unfold State.grantMotion; (try dsimp only); repeat' (first | rfl | (simp; done) | split))

/-- `takeReading` may change only the MU and the HKU. -/
@[simp] theorem State.takeReading_frame (s : State) (r : SensorReading) (t : Time) :
    (s.takeReading r t).now = s.now ∧ (s.takeReading r t).mem = s.mem ∧ (s.takeReading r t).port = s.port ∧
    (s.takeReading r t).tiu = s.tiu ∧ (s.takeReading r t).fcu = s.fcu ∧ (s.takeReading r t).ssu = s.ssu ∧
    (s.takeReading r t).au = s.au ∧ (s.takeReading r t).pu = s.pu ∧ (s.takeReading r t).ce = s.ce ∧
    (s.takeReading r t).freeIndex = s.freeIndex ∧ (s.takeReading r t).pending = s.pending := by
  refine ⟨?_, ?_, ?_, ?_, ?_, ?_, ?_, ?_, ?_, ?_, ?_⟩ <;> first | rfl |
    (unfold State.takeReading; (try dsimp only); repeat' (first | rfl | (simp; done) | split))

/-- `endScan` may change only the port and the SSU. -/
@[simp] theorem State.endScan_frame (s : State) :
    s.endScan.now = s.now ∧ s.endScan.mem = s.mem ∧ s.endScan.tiu = s.tiu ∧ s.endScan.fcu = s.fcu ∧
    s.endScan.mu = s.mu ∧ s.endScan.au = s.au ∧ s.endScan.pu = s.pu ∧ s.endScan.ce = s.ce ∧ s.endScan.hku = s.hku ∧
    s.endScan.freeIndex = s.freeIndex ∧ s.endScan.pending = s.pending := by
  refine ⟨?_, ?_, ?_, ?_, ?_, ?_, ?_, ?_, ?_, ?_, ?_⟩ <;> first | rfl |
    (unfold State.endScan; (try dsimp only); repeat' (first | rfl | (simp; done) | split))

/-- `dropChosen` may change only the port and the SSU. -/
@[simp] theorem State.dropChosen_frame (s : State) :
    s.dropChosen.now = s.now ∧ s.dropChosen.mem = s.mem ∧ s.dropChosen.tiu = s.tiu ∧ s.dropChosen.fcu = s.fcu ∧
    s.dropChosen.mu = s.mu ∧ s.dropChosen.au = s.au ∧ s.dropChosen.pu = s.pu ∧ s.dropChosen.ce = s.ce ∧
    s.dropChosen.hku = s.hku ∧ s.dropChosen.freeIndex = s.freeIndex ∧ s.dropChosen.pending = s.pending := by
  refine ⟨?_, ?_, ?_, ?_, ?_, ?_, ?_, ?_, ?_, ?_, ?_⟩ <;> first | rfl |
    (unfold State.dropChosen; (try dsimp only); repeat' (first | rfl | (simp; done) | split))

/-- `beginFrame` may change only the SSU. -/
@[simp] theorem State.beginFrame_frame (s : State) (n : Nat) :
    (s.beginFrame n).now = s.now ∧ (s.beginFrame n).mem = s.mem ∧ (s.beginFrame n).port = s.port ∧ (s.beginFrame n).tiu = s.tiu ∧
    (s.beginFrame n).fcu = s.fcu ∧ (s.beginFrame n).mu = s.mu ∧ (s.beginFrame n).au = s.au ∧ (s.beginFrame n).pu = s.pu ∧
    (s.beginFrame n).ce = s.ce ∧ (s.beginFrame n).hku = s.hku ∧ (s.beginFrame n).freeIndex = s.freeIndex ∧
    (s.beginFrame n).pending = s.pending := by
  refine ⟨?_, ?_, ?_, ?_, ?_, ?_, ?_, ?_, ?_, ?_, ?_, ?_⟩ <;> first | rfl |
    (unfold State.beginFrame; (try dsimp only); repeat' (first | rfl | (simp; done) | split))

/-- `noteStale` may change only the SSU and the HKU. -/
@[simp] theorem State.noteStale_frame (s : State) (k : Fin 4) (h : ConsoleHalf) (b : Bool) :
    (s.noteStale k h b).now = s.now ∧ (s.noteStale k h b).mem = s.mem ∧ (s.noteStale k h b).port = s.port ∧
    (s.noteStale k h b).tiu = s.tiu ∧ (s.noteStale k h b).fcu = s.fcu ∧ (s.noteStale k h b).mu = s.mu ∧
    (s.noteStale k h b).au = s.au ∧ (s.noteStale k h b).pu = s.pu ∧ (s.noteStale k h b).ce = s.ce ∧
    (s.noteStale k h b).freeIndex = s.freeIndex ∧ (s.noteStale k h b).pending = s.pending := by
  refine ⟨?_, ?_, ?_, ?_, ?_, ?_, ?_, ?_, ?_, ?_, ?_⟩ <;> first | rfl |
    (unfold State.noteStale; (try dsimp only); repeat' (first | rfl | (simp; done) | split))

/-- `showSlot` may change only the FCU, the SSU and the HKU. -/
@[simp] theorem State.showSlot_frame (s : State) (k : Fin 4) (h : ConsoleHalf) :
    (s.showSlot k h).now = s.now ∧ (s.showSlot k h).mem = s.mem ∧ (s.showSlot k h).port = s.port ∧
    (s.showSlot k h).tiu = s.tiu ∧ (s.showSlot k h).mu = s.mu ∧ (s.showSlot k h).au = s.au ∧
    (s.showSlot k h).pu = s.pu ∧ (s.showSlot k h).ce = s.ce ∧ (s.showSlot k h).freeIndex = s.freeIndex ∧
    (s.showSlot k h).pending = s.pending := by
  refine ⟨?_, ?_, ?_, ?_, ?_, ?_, ?_, ?_, ?_, ?_⟩ <;> first | rfl |
    (unfold State.showSlot; (try dsimp only); repeat' (first | rfl | (simp; done) | split))

/-- `stopBoundary` may change only the port, the FCU, the SSU, the PU and the HKU. -/
@[simp] theorem State.stopBoundary_frame (s : State) :
    s.stopBoundary.now = s.now ∧ s.stopBoundary.mem = s.mem ∧ s.stopBoundary.tiu = s.tiu ∧ s.stopBoundary.mu = s.mu ∧
    s.stopBoundary.au = s.au ∧ s.stopBoundary.ce = s.ce ∧ s.stopBoundary.freeIndex = s.freeIndex ∧
    s.stopBoundary.pending = s.pending := by
  refine ⟨?_, ?_, ?_, ?_, ?_, ?_, ?_, ?_⟩ <;> first | rfl |
    (unfold State.stopBoundary; (try dsimp only); repeat' (first | rfl | (simp; done) | split))

/-- `skipSlot` may change only the FCU and the HKU. -/
@[simp] theorem State.skipSlot_frame (s : State) (k : Fin 4) :
    (s.skipSlot k).now = s.now ∧ (s.skipSlot k).mem = s.mem ∧ (s.skipSlot k).port = s.port ∧
    (s.skipSlot k).tiu = s.tiu ∧ (s.skipSlot k).ssu = s.ssu ∧ (s.skipSlot k).mu = s.mu ∧ (s.skipSlot k).au = s.au ∧
    (s.skipSlot k).pu = s.pu ∧ (s.skipSlot k).ce = s.ce ∧ (s.skipSlot k).freeIndex = s.freeIndex ∧
    (s.skipSlot k).pending = s.pending := by
  refine ⟨?_, ?_, ?_, ?_, ?_, ?_, ?_, ?_, ?_, ?_, ?_⟩ <;> first | rfl |
    (unfold State.skipSlot; (try dsimp only); repeat' (first | rfl | (simp; done) | split))

/-- Skipping a run of slots may change only the FCU and the HKU. -/
@[simp] theorem State.skips_frame (l : List (Fin 4)) (s : State) :
    (l.foldl State.skipSlot s).now = s.now ∧ (l.foldl State.skipSlot s).mem = s.mem ∧
    (l.foldl State.skipSlot s).port = s.port ∧ (l.foldl State.skipSlot s).tiu = s.tiu ∧
    (l.foldl State.skipSlot s).ssu = s.ssu ∧ (l.foldl State.skipSlot s).mu = s.mu ∧
    (l.foldl State.skipSlot s).au = s.au ∧ (l.foldl State.skipSlot s).pu = s.pu ∧
    (l.foldl State.skipSlot s).ce = s.ce ∧ (l.foldl State.skipSlot s).freeIndex = s.freeIndex ∧
    (l.foldl State.skipSlot s).pending = s.pending := by
  induction l generalizing s with
  | nil => simp
  | cons k l ih => simp [ih]

/-- `releaseShowing` may change only the FCU. -/
@[simp] theorem State.releaseShowing_frame (s : State) :
    s.releaseShowing.now = s.now ∧ s.releaseShowing.mem = s.mem ∧ s.releaseShowing.port = s.port ∧
    s.releaseShowing.tiu = s.tiu ∧ s.releaseShowing.ssu = s.ssu ∧ s.releaseShowing.mu = s.mu ∧
    s.releaseShowing.au = s.au ∧ s.releaseShowing.pu = s.pu ∧ s.releaseShowing.ce = s.ce ∧
    s.releaseShowing.hku = s.hku ∧ s.releaseShowing.freeIndex = s.freeIndex ∧
    s.releaseShowing.pending = s.pending := by
  refine ⟨?_, ?_, ?_, ?_, ?_, ?_, ?_, ?_, ?_, ?_, ?_, ?_⟩ <;> first | rfl |
    (unfold State.releaseShowing; (try dsimp only); repeat' (first | rfl | (simp; done) | split))

/-- `resumeContent` may change only the FCU and the HKU. -/
@[simp] theorem State.resumeContent_frame (s : State) (k : Fin 4) :
    (s.resumeContent k).now = s.now ∧ (s.resumeContent k).mem = s.mem ∧ (s.resumeContent k).port = s.port ∧
    (s.resumeContent k).tiu = s.tiu ∧ (s.resumeContent k).ssu = s.ssu ∧ (s.resumeContent k).mu = s.mu ∧
    (s.resumeContent k).au = s.au ∧ (s.resumeContent k).pu = s.pu ∧ (s.resumeContent k).ce = s.ce ∧
    (s.resumeContent k).freeIndex = s.freeIndex ∧ (s.resumeContent k).pending = s.pending := by
  refine ⟨?_, ?_, ?_, ?_, ?_, ?_, ?_, ?_, ?_, ?_, ?_⟩ <;> first | rfl |
    (unfold State.resumeContent; (try dsimp only); repeat' (first | rfl | (simp; done) | split))

/-- `chooseBoundary` may change only the port, the FCU, the SSU and the HKU. -/
@[simp] theorem State.chooseBoundary_frame (s : State) (o : List (Fin 4)) (k : Fin 4) :
    (s.chooseBoundary o k).now = s.now ∧ (s.chooseBoundary o k).mem = s.mem ∧ (s.chooseBoundary o k).tiu = s.tiu ∧
    (s.chooseBoundary o k).mu = s.mu ∧ (s.chooseBoundary o k).au = s.au ∧ (s.chooseBoundary o k).pu = s.pu ∧
    (s.chooseBoundary o k).ce = s.ce ∧ (s.chooseBoundary o k).freeIndex = s.freeIndex ∧
    (s.chooseBoundary o k).pending = s.pending := by
  refine ⟨?_, ?_, ?_, ?_, ?_, ?_, ?_, ?_, ?_⟩ <;> first | rfl |
    (unfold State.chooseBoundary; (try dsimp only); repeat' (first | rfl | (simp; done) | split))

/-- `repeatBoundary` may change only the port, the FCU, the SSU and the HKU. -/
@[simp] theorem State.repeatBoundary_frame (s : State) (k : Fin 4) :
    (s.repeatBoundary k).now = s.now ∧ (s.repeatBoundary k).mem = s.mem ∧ (s.repeatBoundary k).tiu = s.tiu ∧
    (s.repeatBoundary k).mu = s.mu ∧ (s.repeatBoundary k).au = s.au ∧ (s.repeatBoundary k).pu = s.pu ∧
    (s.repeatBoundary k).ce = s.ce ∧ (s.repeatBoundary k).freeIndex = s.freeIndex ∧
    (s.repeatBoundary k).pending = s.pending := by
  refine ⟨?_, ?_, ?_, ?_, ?_, ?_, ?_, ?_, ?_⟩ <;> first | rfl |
    (unfold State.repeatBoundary; (try dsimp only); repeat' (first | rfl | (simp; done) | split))

/-- `blankBoundary` may change only the port, the SSU and the HKU. -/
@[simp] theorem State.blankBoundary_frame (s : State) :
    s.blankBoundary.now = s.now ∧ s.blankBoundary.mem = s.mem ∧ s.blankBoundary.tiu = s.tiu ∧
    s.blankBoundary.fcu = s.fcu ∧ s.blankBoundary.mu = s.mu ∧ s.blankBoundary.au = s.au ∧ s.blankBoundary.pu = s.pu ∧
    s.blankBoundary.ce = s.ce ∧ s.blankBoundary.freeIndex = s.freeIndex ∧ s.blankBoundary.pending = s.pending := by
  refine ⟨?_, ?_, ?_, ?_, ?_, ?_, ?_, ?_, ?_, ?_⟩ <;> first | rfl |
    (unfold State.blankBoundary; (try dsimp only); repeat' (first | rfl | (simp; done) | split))

/-- `loseContent` may change only the FCU and the HKU. -/
@[simp] theorem State.loseContent_frame (s : State) (k : Fin 4) :
    (s.loseContent k).now = s.now ∧ (s.loseContent k).mem = s.mem ∧ (s.loseContent k).port = s.port ∧
    (s.loseContent k).tiu = s.tiu ∧ (s.loseContent k).ssu = s.ssu ∧ (s.loseContent k).mu = s.mu ∧
    (s.loseContent k).au = s.au ∧ (s.loseContent k).pu = s.pu ∧ (s.loseContent k).ce = s.ce ∧
    (s.loseContent k).freeIndex = s.freeIndex ∧ (s.loseContent k).pending = s.pending := by
  refine ⟨?_, ?_, ?_, ?_, ?_, ?_, ?_, ?_, ?_, ?_, ?_⟩ <;> first | rfl |
    (unfold State.loseContent; (try dsimp only); repeat' (first | rfl | (simp; done) | split))

/-- `boundary` may change only the port, the FCU, the SSU, the PU and the HKU. -/
@[simp] theorem State.boundary_frame (s : State) :
    s.boundary.now = s.now ∧ s.boundary.mem = s.mem ∧ s.boundary.tiu = s.tiu ∧ s.boundary.mu = s.mu ∧
    s.boundary.au = s.au ∧ s.boundary.ce = s.ce ∧ s.boundary.freeIndex = s.freeIndex ∧
    s.boundary.pending = s.pending := by
  refine ⟨?_, ?_, ?_, ?_, ?_, ?_, ?_, ?_⟩ <;> first | rfl |
    (unfold State.boundary; (try dsimp only); repeat' (first | rfl | (simp; done) | split))

/-- `startDisplay` may change only the FCU and the PU. -/
@[simp] theorem State.startDisplay_frame (s : State) (r : Record) :
    (s.startDisplay r).now = s.now ∧ (s.startDisplay r).mem = s.mem ∧ (s.startDisplay r).port = s.port ∧
    (s.startDisplay r).tiu = s.tiu ∧ (s.startDisplay r).ssu = s.ssu ∧ (s.startDisplay r).mu = s.mu ∧
    (s.startDisplay r).au = s.au ∧ (s.startDisplay r).ce = s.ce ∧ (s.startDisplay r).hku = s.hku ∧
    (s.startDisplay r).freeIndex = s.freeIndex ∧ (s.startDisplay r).pending = s.pending := by
  refine ⟨?_, ?_, ?_, ?_, ?_, ?_, ?_, ?_, ?_, ?_, ?_⟩ <;> first | rfl |
    (unfold State.startDisplay; (try dsimp only); repeat' (first | rfl | (simp; done) | split))

/-- `noteRing` may change only the HKU. -/
@[simp] theorem State.noteRing_frame (s : State) (n : Nat) (r : PoseRecord) :
    (s.noteRing n r).now = s.now ∧ (s.noteRing n r).mem = s.mem ∧ (s.noteRing n r).port = s.port ∧
    (s.noteRing n r).tiu = s.tiu ∧ (s.noteRing n r).fcu = s.fcu ∧ (s.noteRing n r).ssu = s.ssu ∧
    (s.noteRing n r).mu = s.mu ∧ (s.noteRing n r).au = s.au ∧ (s.noteRing n r).pu = s.pu ∧
    (s.noteRing n r).ce = s.ce ∧ (s.noteRing n r).freeIndex = s.freeIndex ∧ (s.noteRing n r).pending = s.pending := by
  refine ⟨?_, ?_, ?_, ?_, ?_, ?_, ?_, ?_, ?_, ?_, ?_, ?_⟩ <;> first | rfl |
    (unfold State.noteRing; (try dsimp only); repeat' (first | rfl | (simp; done) | split))

/-- `queueJob` may change only the FCU and the CE. -/
@[simp] theorem State.queueJob_frame (s : State) (j : Job) :
    (s.queueJob j).now = s.now ∧ (s.queueJob j).mem = s.mem ∧ (s.queueJob j).port = s.port ∧
    (s.queueJob j).tiu = s.tiu ∧ (s.queueJob j).ssu = s.ssu ∧ (s.queueJob j).mu = s.mu ∧ (s.queueJob j).au = s.au ∧
    (s.queueJob j).pu = s.pu ∧ (s.queueJob j).hku = s.hku ∧ (s.queueJob j).freeIndex = s.freeIndex ∧
    (s.queueJob j).pending = s.pending := by
  refine ⟨?_, ?_, ?_, ?_, ?_, ?_, ?_, ?_, ?_, ?_, ?_⟩ <;> first | rfl |
    (unfold State.queueJob; (try dsimp only); repeat' (first | rfl | (simp; done) | split))

/-- `takeJob` may change only the FCU, the CE and the HKU. -/
@[simp] theorem State.takeJob_frame (s : State) (r : Record) (j : Job) :
    (s.takeJob r j).now = s.now ∧ (s.takeJob r j).mem = s.mem ∧ (s.takeJob r j).port = s.port ∧
    (s.takeJob r j).tiu = s.tiu ∧ (s.takeJob r j).ssu = s.ssu ∧ (s.takeJob r j).mu = s.mu ∧
    (s.takeJob r j).au = s.au ∧ (s.takeJob r j).pu = s.pu ∧ (s.takeJob r j).freeIndex = s.freeIndex ∧
    (s.takeJob r j).pending = s.pending := by
  refine ⟨?_, ?_, ?_, ?_, ?_, ?_, ?_, ?_, ?_, ?_⟩ <;> first | rfl |
    (unfold State.takeJob; (try dsimp only); repeat' (first | rfl | (simp; done) | split))

/-- `closeJob` may change only the FCU and the HKU. -/
@[simp] theorem State.closeJob_frame (s : State) (j : Job) (o : JobOutcome) (n : Nat) :
    (s.closeJob j o n).now = s.now ∧ (s.closeJob j o n).mem = s.mem ∧ (s.closeJob j o n).port = s.port ∧
    (s.closeJob j o n).tiu = s.tiu ∧ (s.closeJob j o n).ssu = s.ssu ∧ (s.closeJob j o n).mu = s.mu ∧
    (s.closeJob j o n).au = s.au ∧ (s.closeJob j o n).pu = s.pu ∧ (s.closeJob j o n).ce = s.ce ∧
    (s.closeJob j o n).freeIndex = s.freeIndex ∧ (s.closeJob j o n).pending = s.pending := by
  refine ⟨?_, ?_, ?_, ?_, ?_, ?_, ?_, ?_, ?_, ?_, ?_⟩ <;> first | rfl |
    (unfold State.closeJob; (try dsimp only); repeat' (first | rfl | (simp; done) | split))

/-- `endRunning` may change only the FCU, the CE and the HKU. -/
@[simp] theorem State.endRunning_frame (s : State) (j : Job) (o : JobOutcome) (n : Nat) :
    (s.endRunning j o n).now = s.now ∧ (s.endRunning j o n).mem = s.mem ∧ (s.endRunning j o n).port = s.port ∧
    (s.endRunning j o n).tiu = s.tiu ∧ (s.endRunning j o n).ssu = s.ssu ∧ (s.endRunning j o n).mu = s.mu ∧
    (s.endRunning j o n).au = s.au ∧ (s.endRunning j o n).pu = s.pu ∧ (s.endRunning j o n).freeIndex = s.freeIndex ∧
    (s.endRunning j o n).pending = s.pending := by
  refine ⟨?_, ?_, ?_, ?_, ?_, ?_, ?_, ?_, ?_, ?_⟩ <;> first | rfl |
    (unfold State.endRunning; (try dsimp only); repeat' (first | rfl | (simp; done) | split))

/-- `abortJob` may change only the FCU, the CE and the HKU. -/
@[simp] theorem State.abortJob_frame (s : State) (i : Nat) (j : Job) :
    (s.abortJob i j).now = s.now ∧ (s.abortJob i j).mem = s.mem ∧ (s.abortJob i j).port = s.port ∧
    (s.abortJob i j).tiu = s.tiu ∧ (s.abortJob i j).ssu = s.ssu ∧ (s.abortJob i j).mu = s.mu ∧
    (s.abortJob i j).au = s.au ∧ (s.abortJob i j).pu = s.pu ∧ (s.abortJob i j).freeIndex = s.freeIndex ∧
    (s.abortJob i j).pending = s.pending := by
  refine ⟨?_, ?_, ?_, ?_, ?_, ?_, ?_, ?_, ?_, ?_⟩ <;> first | rfl |
    (unfold State.abortJob; (try dsimp only); repeat' (first | rfl | (simp; done) | split))

/-- `copyWritten` may change only the FCU, the CE and the HKU. -/
@[simp] theorem State.copyWritten_frame (s : State) (j : Job) (n : Nat) :
    (s.copyWritten j n).now = s.now ∧ (s.copyWritten j n).mem = s.mem ∧ (s.copyWritten j n).port = s.port ∧
    (s.copyWritten j n).tiu = s.tiu ∧ (s.copyWritten j n).ssu = s.ssu ∧ (s.copyWritten j n).mu = s.mu ∧
    (s.copyWritten j n).au = s.au ∧ (s.copyWritten j n).pu = s.pu ∧ (s.copyWritten j n).freeIndex = s.freeIndex ∧
    (s.copyWritten j n).pending = s.pending := by
  refine ⟨?_, ?_, ?_, ?_, ?_, ?_, ?_, ?_, ?_, ?_⟩ <;> first | rfl |
    (unfold State.copyWritten; (try dsimp only); repeat' (first | rfl | (simp; done) | split))

/-- `startPlayback` may change only the AU. -/
@[simp] theorem State.startPlayback_frame (s : State) (a b : Nat) :
    (s.startPlayback a b).now = s.now ∧ (s.startPlayback a b).mem = s.mem ∧ (s.startPlayback a b).port = s.port ∧
    (s.startPlayback a b).tiu = s.tiu ∧ (s.startPlayback a b).fcu = s.fcu ∧ (s.startPlayback a b).ssu = s.ssu ∧
    (s.startPlayback a b).mu = s.mu ∧ (s.startPlayback a b).pu = s.pu ∧ (s.startPlayback a b).ce = s.ce ∧
    (s.startPlayback a b).hku = s.hku ∧ (s.startPlayback a b).freeIndex = s.freeIndex ∧
    (s.startPlayback a b).pending = s.pending := by
  refine ⟨?_, ?_, ?_, ?_, ?_, ?_, ?_, ?_, ?_, ?_, ?_, ?_⟩ <;> first | rfl |
    (unfold State.startPlayback; (try dsimp only); repeat' (first | rfl | (simp; done) | split))

/-- `settleOverrun` may change only the AU and the HKU. -/
@[simp] theorem State.settleOverrun_frame (s : State) :
    s.settleOverrun.now = s.now ∧ s.settleOverrun.mem = s.mem ∧ s.settleOverrun.port = s.port ∧
    s.settleOverrun.tiu = s.tiu ∧ s.settleOverrun.fcu = s.fcu ∧ s.settleOverrun.ssu = s.ssu ∧
    s.settleOverrun.mu = s.mu ∧ s.settleOverrun.pu = s.pu ∧ s.settleOverrun.ce = s.ce ∧
    s.settleOverrun.freeIndex = s.freeIndex ∧ s.settleOverrun.pending = s.pending := by
  refine ⟨?_, ?_, ?_, ?_, ?_, ?_, ?_, ?_, ?_, ?_, ?_⟩ <;> first | rfl |
    (unfold State.settleOverrun; (try dsimp only); repeat' (first | rfl | (simp; done) | split))

/-- `starve` may change only the AU and the HKU. -/
@[simp] theorem State.starve_frame (s : State) :
    s.starve.now = s.now ∧ s.starve.mem = s.mem ∧ s.starve.port = s.port ∧ s.starve.tiu = s.tiu ∧
    s.starve.fcu = s.fcu ∧ s.starve.ssu = s.ssu ∧ s.starve.mu = s.mu ∧ s.starve.pu = s.pu ∧ s.starve.ce = s.ce ∧
    s.starve.freeIndex = s.freeIndex ∧ s.starve.pending = s.pending := by
  refine ⟨?_, ?_, ?_, ?_, ?_, ?_, ?_, ?_, ?_, ?_, ?_⟩ <;> first | rfl |
    (unfold State.starve; (try dsimp only); repeat' (first | rfl | (simp; done) | split))

/-- `playBlock` may change only the AU. -/
@[simp] theorem State.playBlock_frame (s : State) :
    s.playBlock.1.now = s.now ∧ s.playBlock.1.mem = s.mem ∧ s.playBlock.1.port = s.port ∧ s.playBlock.1.tiu = s.tiu ∧
    s.playBlock.1.fcu = s.fcu ∧ s.playBlock.1.ssu = s.ssu ∧ s.playBlock.1.mu = s.mu ∧ s.playBlock.1.pu = s.pu ∧
    s.playBlock.1.ce = s.ce ∧ s.playBlock.1.hku = s.hku ∧ s.playBlock.1.freeIndex = s.freeIndex ∧
    s.playBlock.1.pending = s.pending := by
  refine ⟨?_, ?_, ?_, ?_, ?_, ?_, ?_, ?_, ?_, ?_, ?_, ?_⟩ <;> first | rfl |
    (unfold State.playBlock; (try dsimp only); repeat' (first | rfl | (simp; done) | split))

/-- `settlePlayback` may change only the AU and the HKU. -/
@[simp] theorem State.settlePlayback_frame (s : State) :
    s.settlePlayback.1.now = s.now ∧ s.settlePlayback.1.mem = s.mem ∧ s.settlePlayback.1.port = s.port ∧
    s.settlePlayback.1.tiu = s.tiu ∧ s.settlePlayback.1.fcu = s.fcu ∧ s.settlePlayback.1.ssu = s.ssu ∧
    s.settlePlayback.1.mu = s.mu ∧ s.settlePlayback.1.pu = s.pu ∧ s.settlePlayback.1.ce = s.ce ∧
    s.settlePlayback.1.freeIndex = s.freeIndex ∧ s.settlePlayback.1.pending = s.pending := by
  unfold State.settlePlayback
  dsimp only
  split <;> split <;> (try split) <;> simp

/-- `endCue` may change only the AU and the HKU. -/
@[simp] theorem State.endCue_frame (s : State) :
    s.endCue.now = s.now ∧ s.endCue.mem = s.mem ∧ s.endCue.port = s.port ∧ s.endCue.tiu = s.tiu ∧
    s.endCue.fcu = s.fcu ∧ s.endCue.ssu = s.ssu ∧ s.endCue.mu = s.mu ∧ s.endCue.pu = s.pu ∧ s.endCue.ce = s.ce ∧
    s.endCue.freeIndex = s.freeIndex ∧ s.endCue.pending = s.pending := by
  refine ⟨?_, ?_, ?_, ?_, ?_, ?_, ?_, ?_, ?_, ?_, ?_⟩ <;> first | rfl |
    (unfold State.endCue; (try dsimp only); repeat' (first | rfl | (simp; done) | split))

/-- `settleCue` may change only the AU and the HKU. -/
@[simp] theorem State.settleCue_frame (s : State) :
    s.settleCue.1.now = s.now ∧ s.settleCue.1.mem = s.mem ∧ s.settleCue.1.port = s.port ∧ s.settleCue.1.tiu = s.tiu ∧
    s.settleCue.1.fcu = s.fcu ∧ s.settleCue.1.ssu = s.ssu ∧ s.settleCue.1.mu = s.mu ∧ s.settleCue.1.pu = s.pu ∧
    s.settleCue.1.ce = s.ce ∧ s.settleCue.1.freeIndex = s.freeIndex ∧ s.settleCue.1.pending = s.pending := by
  refine ⟨?_, ?_, ?_, ?_, ?_, ?_, ?_, ?_, ?_, ?_, ?_⟩ <;> first | rfl |
    (unfold State.settleCue; (try dsimp only); repeat' (first | rfl | (simp; done) | split))

/-- `settleVolume` may change only the AU. -/
@[simp] theorem State.settleVolume_frame (s : State) :
    s.settleVolume.now = s.now ∧ s.settleVolume.mem = s.mem ∧ s.settleVolume.port = s.port ∧
    s.settleVolume.tiu = s.tiu ∧ s.settleVolume.fcu = s.fcu ∧ s.settleVolume.ssu = s.ssu ∧ s.settleVolume.mu = s.mu ∧
    s.settleVolume.pu = s.pu ∧ s.settleVolume.ce = s.ce ∧ s.settleVolume.hku = s.hku ∧
    s.settleVolume.freeIndex = s.freeIndex ∧ s.settleVolume.pending = s.pending := by
  refine ⟨?_, ?_, ?_, ?_, ?_, ?_, ?_, ?_, ?_, ?_, ?_, ?_⟩ <;> first | rfl |
    (unfold State.settleVolume; (try dsimp only); repeat' (first | rfl | (simp; done) | split))

/-- `recordBlock` may change only the AU and the HKU. -/
@[simp] theorem State.recordBlock_frame (s : State) (g : Gathering) :
    (s.recordBlock g).1.now = s.now ∧ (s.recordBlock g).1.mem = s.mem ∧ (s.recordBlock g).1.port = s.port ∧
    (s.recordBlock g).1.tiu = s.tiu ∧ (s.recordBlock g).1.fcu = s.fcu ∧ (s.recordBlock g).1.ssu = s.ssu ∧
    (s.recordBlock g).1.mu = s.mu ∧ (s.recordBlock g).1.pu = s.pu ∧ (s.recordBlock g).1.ce = s.ce ∧
    (s.recordBlock g).1.freeIndex = s.freeIndex ∧ (s.recordBlock g).1.pending = s.pending := by
  refine ⟨?_, ?_, ?_, ?_, ?_, ?_, ?_, ?_, ?_, ?_, ?_⟩ <;> first | rfl |
    (unfold State.recordBlock; (try dsimp only); repeat' (first | rfl | (simp; done) | split))

/-- `settleCapture` may change only the AU and the HKU. -/
@[simp] theorem State.settleCapture_frame (s : State) :
    s.settleCapture.1.now = s.now ∧ s.settleCapture.1.mem = s.mem ∧ s.settleCapture.1.port = s.port ∧
    s.settleCapture.1.tiu = s.tiu ∧ s.settleCapture.1.fcu = s.fcu ∧ s.settleCapture.1.ssu = s.ssu ∧
    s.settleCapture.1.mu = s.mu ∧ s.settleCapture.1.pu = s.pu ∧ s.settleCapture.1.ce = s.ce ∧
    s.settleCapture.1.freeIndex = s.freeIndex ∧ s.settleCapture.1.pending = s.pending := by
  refine ⟨?_, ?_, ?_, ?_, ?_, ?_, ?_, ?_, ?_, ?_, ?_⟩ <;> first | rfl |
    (unfold State.settleCapture; (try dsimp only); repeat' (first | rfl | (simp; done) | split))

/-- `markLate` may change only the port and the AU. -/
@[simp] theorem State.markLate_frame (s : State) :
    s.markLate.now = s.now ∧ s.markLate.mem = s.mem ∧ s.markLate.tiu = s.tiu ∧ s.markLate.fcu = s.fcu ∧
    s.markLate.ssu = s.ssu ∧ s.markLate.mu = s.mu ∧ s.markLate.pu = s.pu ∧ s.markLate.ce = s.ce ∧
    s.markLate.hku = s.hku ∧ s.markLate.freeIndex = s.freeIndex ∧ s.markLate.pending = s.pending := by
  refine ⟨?_, ?_, ?_, ?_, ?_, ?_, ?_, ?_, ?_, ?_, ?_⟩ <;> first | rfl |
    (unfold State.markLate; (try dsimp only); repeat' (first | rfl | (simp; done) | split))

/-- `blockBoundary` may change only the port, the AU and the HKU. -/
@[simp] theorem State.blockBoundary_frame (s : State) :
    s.blockBoundary.now = s.now ∧ s.blockBoundary.mem = s.mem ∧ s.blockBoundary.tiu = s.tiu ∧
    s.blockBoundary.fcu = s.fcu ∧ s.blockBoundary.ssu = s.ssu ∧ s.blockBoundary.mu = s.mu ∧
    s.blockBoundary.pu = s.pu ∧ s.blockBoundary.ce = s.ce ∧ s.blockBoundary.freeIndex = s.freeIndex ∧
    s.blockBoundary.pending = s.pending := by
  refine ⟨?_, ?_, ?_, ?_, ?_, ?_, ?_, ?_, ?_, ?_⟩ <;> first | rfl |
    (unfold State.blockBoundary; (try dsimp only); repeat' (first | rfl | (simp; done) | split))

/-- `showNotices` may change only the tether and the HKU. -/
@[simp] theorem State.showNotices_frame (s : State) (w : Word) :
    (s.showNotices w).now = s.now ∧ (s.showNotices w).mem = s.mem ∧ (s.showNotices w).port = s.port ∧
    (s.showNotices w).fcu = s.fcu ∧ (s.showNotices w).ssu = s.ssu ∧ (s.showNotices w).mu = s.mu ∧
    (s.showNotices w).au = s.au ∧ (s.showNotices w).pu = s.pu ∧ (s.showNotices w).ce = s.ce ∧
    (s.showNotices w).freeIndex = s.freeIndex ∧ (s.showNotices w).pending = s.pending := by
  refine ⟨?_, ?_, ?_, ?_, ?_, ?_, ?_, ?_, ?_, ?_, ?_⟩ <;> first | rfl |
    (unfold State.showNotices; (try dsimp only); repeat' (first | rfl | (simp; done) | split))

/-- `startCue` may change only the AU. -/
@[simp] theorem State.startCue_frame (s : State) (c : Cue) (a b : Bool) :
    (s.startCue c a b).now = s.now ∧ (s.startCue c a b).mem = s.mem ∧ (s.startCue c a b).port = s.port ∧
    (s.startCue c a b).tiu = s.tiu ∧ (s.startCue c a b).fcu = s.fcu ∧ (s.startCue c a b).ssu = s.ssu ∧
    (s.startCue c a b).mu = s.mu ∧ (s.startCue c a b).pu = s.pu ∧ (s.startCue c a b).ce = s.ce ∧
    (s.startCue c a b).hku = s.hku ∧ (s.startCue c a b).freeIndex = s.freeIndex ∧
    (s.startCue c a b).pending = s.pending := by
  refine ⟨?_, ?_, ?_, ?_, ?_, ?_, ?_, ?_, ?_, ?_, ?_, ?_⟩ <;> first | rfl |
    (unfold State.startCue; (try dsimp only); repeat' (first | rfl | (simp; done) | split))

/-! ### A panel port and its frames (R118 to R120) -/

@[simp] theorem PanelPort.complete_frame (p : PanelPort) (n : Nat) (c : Rgb) : (p.complete n c).frame = none := by
  cases h : p.frame <;> simp [PanelPort.complete, h]

@[simp] theorem PanelPort.complete_idle (p : PanelPort) (n : Nat) (c : Rgb) (h : p.frame = none) : p.complete n c = p := by
  simp [PanelPort.complete, h]

@[simp] theorem PanelPort.begin_frame (p : PanelPort) (n : Nat) (c : Rgb) : (p.begin n c).frame = some ⟨[], n, c⟩ := rfl

@[simp] theorem PanelPort.begin_ended (p : PanelPort) (n : Nat) (c : Rgb) : (p.begin n c).ended = p.ended := rfl

@[simp] theorem PanelFrame.sent_length (f : PanelFrame) : f.sent.length = f.pixels.length + f.fill := by
  simp [PanelFrame.sent]

/-- A completed frame has as many pixels as the panel. -/
theorem PanelPort.complete_length (p : PanelPort) (f : PanelFrame) (n : Nat) (c : Rgb) (h : p.frame = some f)
    (hn : f.pixels.length ≤ n) : ∃ g, (p.complete n c).ended = some g ∧ g.sent.length = n :=
  ⟨_, by simp only [PanelPort.complete, h]; rfl, by rw [PanelFrame.sent_length]; exact Nat.add_sub_cancel' hn⟩

/-! ### A prediction (R62, R63) -/

@[simp] theorem Mu.predict_motion (m : Mu) (t : Time) : (m.predict t).motion = m.motion := rfl

/-- A prediction has no angles exactly in OFF. -/
theorem Mu.predict_angles_none (m : Mu) (t : Time) : (m.predict t).angles = none ↔ m.motion = .off := by
  cases h : m.motion <;> simp [Mu.predict, h]

end Sys2Proof.Machine
end

