-- ==== Sys2Proof/Laws/Memory.lean ====
section
/-! SUPPORT. Memory: a read after a write, and the canonical form kept by every memory operation. -/

namespace Sys2Proof.Machine

/-- Reading after writing one byte. -/
theorem Memory.get?_set (m : Memory) (a c : Nat) (b : Byte) :
    (m.set a b).get? c = if a = c then some b else m.get? c := by
  induction m with
  | nil => simp [Memory.set, Memory.get?]
  | cons p rest ih =>
    obtain ⟨k, v⟩ := p
    simp only [Memory.set]
    split
    · simp [Memory.get?]
    · split
      · subst_vars
        simp only [Memory.get?]
        split <;> simp_all
      · simp only [Memory.get?, ih]
        split <;> split <;> simp_all

/-- Reading after writing a run of bytes: a byte written reads as written, every other byte as before. -/
theorem Memory.get?_writeBytes (bytes : List (Option Byte)) (m : Memory) (a c : Nat) :
    (m.writeBytes a bytes).get? c =
      if a ≤ c ∧ c < a + bytes.length then (bytes[c - a]?.join).or (m.get? c) else m.get? c := by
  induction bytes generalizing m a with
  | nil =>
    simp only [Memory.writeBytes, List.length_nil, Nat.add_zero]
    rw [if_neg (by omega)]
  | cons x rest ih =>
    have tail : ∀ m' : Memory, (a + 1 ≤ c → m'.get? c = m.get? c) → a ≠ c →
        (m'.get? c = m.get? c) →
        (m'.writeBytes (a + 1) rest).get? c =
          if a ≤ c ∧ c < a + (x :: rest).length then ((x :: rest)[c - a]?.join).or (m.get? c) else m.get? c := by
      intro m' _ hne heq
      rw [ih, heq, List.length_cons]
      by_cases h : a + 1 ≤ c ∧ c < a + 1 + rest.length
      · rw [if_pos h, if_pos (by omega)]
        obtain ⟨d, rfl⟩ : ∃ d, c = a + 1 + d := ⟨c - (a + 1), by omega⟩
        rw [show a + 1 + d - (a + 1) = d by omega, show a + 1 + d - a = d + 1 by omega]
        rfl
      · rw [if_neg h, if_neg (by omega)]
    cases x with
    | none =>
      simp only [Memory.writeBytes]
      by_cases hne : a = c
      · subst hne
        rw [ih, if_neg (by omega), if_pos (by simp)]
        simp
      · exact tail m (fun _ => rfl) hne rfl
    | some b =>
      simp only [Memory.writeBytes]
      by_cases hne : a = c
      · subst hne
        rw [ih, if_neg (by omega), if_pos (by simp), Memory.get?_set, if_pos rfl]
        simp
      · exact tail (m.set a b) (fun _ => by rw [Memory.get?_set, if_neg hne]) hne
          (by rw [Memory.get?_set, if_neg hne])

/-- A byte outside a run written reads as before. -/
theorem Memory.read_writeBytes_outside (bytes : List (Option Byte)) (m : Memory) (a c : Nat)
    (h : c < a ∨ a + bytes.length ≤ c) : (m.writeBytes a bytes).read c = m.read c := by
  simp only [Memory.read, Memory.get?_writeBytes]
  rw [if_neg (by omega)]

/-- A lower bound of the canonical form may be lowered. -/
theorem Memory.risingFrom_mono (m : Memory) {lo lo' : Nat} (h : lo' ≤ lo) (w : Memory.risingFrom lo m = true) :
    Memory.risingFrom lo' m = true := by
  cases m with
  | nil => rfl
  | cons p rest =>
    obtain ⟨k, v⟩ := p
    simp only [Memory.risingFrom, Bool.and_eq_true, decide_eq_true_eq] at w ⊢
    exact ⟨⟨by omega, w.1.2⟩, w.2⟩

/-- Writing a byte inside DRAM keeps the canonical form from any bound not above it. -/
theorem Memory.risingFrom_set (m : Memory) (lo a : Nat) (b : Byte) (ha : a < Config.dramSize) (hlo : lo ≤ a)
    (w : Memory.risingFrom lo m = true) : Memory.risingFrom lo (m.set a b) = true := by
  induction m generalizing lo with
  | nil => simp [Memory.set, Memory.risingFrom, ha, hlo]
  | cons p rest ih =>
    obtain ⟨k, v⟩ := p
    simp only [Memory.risingFrom, Bool.and_eq_true, decide_eq_true_eq] at w
    simp only [Memory.set]
    split
    · simp only [Memory.risingFrom, Bool.and_eq_true, decide_eq_true_eq]
      exact ⟨⟨hlo, ha⟩, ⟨by omega, w.1.2⟩, w.2⟩
    · split
      · subst_vars
        simp only [Memory.risingFrom, Bool.and_eq_true, decide_eq_true_eq]
        exact ⟨⟨hlo, ha⟩, w.2⟩
      · simp only [Memory.risingFrom, Bool.and_eq_true, decide_eq_true_eq]
        exact ⟨w.1, ih (k + 1) (by omega) w.2⟩

/-- Writing one byte of DRAM keeps the canonical form. -/
theorem Memory.wf_set (m : Memory) (a : Nat) (b : Byte) (ha : a < Config.dramSize) (w : m.wf = true) :
    (m.set a b).wf = true :=
  Memory.risingFrom_set m 0 a b ha (Nat.zero_le _) w

/-- Writing a run of bytes inside DRAM keeps the canonical form. -/
theorem Memory.wf_writeBytes (bytes : List (Option Byte)) (m : Memory) (a : Nat)
    (h : a + bytes.length ≤ Config.dramSize) (w : m.wf = true) : (m.writeBytes a bytes).wf = true := by
  induction bytes generalizing m a with
  | nil => exact w
  | cons x rest ih =>
    simp only [List.length_cons] at h
    cases x with
    | none => exact ih m (a + 1) (by omega) w
    | some b => exact ih (m.set a b) (a + 1) (by omega) (Memory.wf_set m a b (by omega) w)

/-- The effect of an access that stays inside DRAM keeps the canonical form. -/
theorem Access.wf_apply (x : Access) (m : Memory) (h : x.stop ≤ Config.dramSize) (w : m.wf = true) :
    (x.apply m).wf = true := by
  simp only [Access.apply]
  split
  · exact w
  · rename_i bytes heq
    refine Memory.wf_writeBytes bytes m x.addr ?_ w
    simpa [Access.stop, heq, Transfer.length] using h

/-- An access changes no byte outside its span. -/
theorem Access.read_apply_outside (x : Access) (m : Memory) (c : Nat) (h : c < x.addr ∨ x.stop ≤ c) :
    (x.apply m).read c = m.read c := by
  simp only [Access.apply]
  split
  · rfl
  · rename_i bytes heq
    refine Memory.read_writeBytes_outside bytes m x.addr c ?_
    simpa [Access.stop, heq, Transfer.length] using h

/-- The memory of the machine at reset is in canonical form. -/
theorem Memory.wf_reset : State.reset.mem.wf = true := rfl

end Sys2Proof.Machine
end

