-- ==== Sys2Proof/Laws/PerInstr.lean ====
section
/-! SUPPORT. A statement about every step as syntax: what a tether message spells is well formed (R2). -/

namespace Sys2Proof.Laws.MessageForm

/-- A step that some message of the tether spells is well formed. -/
def Statement (i : Instr) : Prop :=
  (∃ (t : Time) (crcOk : Bool) (bytes : List Byte), decodeMessage t crcOk bytes = i) → i.wellFormed = true

theorem powerOn : Statement .powerOn := fun _ => rfl

theorem bootRecordRead (t : Time) (flash : Option FlashRecord) : Statement (.bootRecordRead t flash) := by
  rintro ⟨t', ok, bytes, h⟩
  simp only [decodeMessage] at h
  repeat' split at h
  all_goals cases h

theorem bootLoadComplete (t : Time) : Statement (.bootLoadComplete t) := fun _ => rfl

theorem linkUp (t : Time) : Statement (.linkUp t) := fun _ => rfl

theorem linkDown (t : Time) : Statement (.linkDown t) := fun _ => rfl

theorem badMessage (t : Time) : Statement (.badMessage t) := fun _ => rfl

theorem write (t : Time) (addr : Word) (len : Half) (data : List Byte) : Statement (.write t addr len data) := by
  rintro ⟨t', ok, bytes, h⟩
  simp only [decodeMessage] at h
  split at h
  · cases h
  · split at h
    · split at h <;> cases h
      assumption
    · split at h
      · split at h <;> cases h
      · split at h <;> cases h

theorem read (t : Time) (addr : Word) (len : Half) (tag : Byte) : Statement (.read t addr len tag) := by
  rintro ⟨t', ok, bytes, h⟩
  simp only [decodeMessage] at h
  split at h
  · cases h
  · split at h
    · split at h <;> cases h
    · split at h
      · split at h <;> cases h
        assumption
      · split at h <;> cases h

theorem timeMark (t : Time) (markId : Byte) (consoleTime : BitVec 64) : Statement (.timeMark t markId consoleTime) := fun _ => rfl

theorem requestTake (t : Time) : Statement (.requestTake t) := fun _ => rfl

theorem inboundWriteDone (t : Time) : Statement (.inboundWriteDone t) := fun _ => rfl

theorem inboundReadDone (t : Time) : Statement (.inboundReadDone t) := fun _ => rfl

theorem upstreamMessageSent (t : Time) : Statement (.upstreamMessageSent t) := fun _ => rfl

theorem commandProducer (t : Time) : Statement (.commandProducer t) := fun _ => rfl

theorem noticeConsumer (t : Time) : Statement (.noticeConsumer t) := fun _ => rfl

theorem poseHold (t : Time) : Statement (.poseHold t) := fun _ => rfl

theorem playbackProducer (t : Time) : Statement (.playbackProducer t) := fun _ => rfl

theorem captureConsumer (t : Time) : Statement (.captureConsumer t) := fun _ => rfl

theorem cueRequest (t : Time) : Statement (.cueRequest t) := fun _ => rfl

theorem submitWord (t : Time) : Statement (.submitWord t) := fun _ => rfl

theorem commandConsumerWriteDone (t : Time) : Statement (.commandConsumerWriteDone t) := fun _ => rfl

theorem unknownCommand (t : Time) : Statement (.unknownCommand t) := fun _ => rfl

theorem applyLayout (t : Time) : Statement (.applyLayout t) := fun _ => rfl

theorem layoutTableRead (t : Time) : Statement (.layoutTableRead t) := fun _ => rfl

theorem restart (t : Time) : Statement (.restart t) := fun _ => rfl

theorem displayStart (t : Time) : Statement (.displayStart t) := fun _ => rfl

theorem displayStop (t : Time) : Statement (.displayStop t) := fun _ => rfl

theorem setEyeTrim (t : Time) : Statement (.setEyeTrim t) := fun _ => rfl

theorem motionStart (t : Time) : Statement (.motionStart t) := fun _ => rfl

theorem motionStop (t : Time) : Statement (.motionStop t) := fun _ => rfl

theorem setGyroBias (t : Time) : Statement (.setGyroBias t) := fun _ => rfl

theorem playbackStart (t : Time) : Statement (.playbackStart t) := fun _ => rfl

theorem playbackStop (t : Time) : Statement (.playbackStop t) := fun _ => rfl

theorem setVolume (t : Time) : Statement (.setVolume t) := fun _ => rfl

theorem captureStart (t : Time) : Statement (.captureStart t) := fun _ => rfl

theorem captureStop (t : Time) : Statement (.captureStop t) := fun _ => rfl

theorem copy (t : Time) : Statement (.copy t) := fun _ => rfl

theorem fill (t : Time) : Statement (.fill t) := fun _ => rfl

theorem abortCopy (t : Time) : Statement (.abortCopy t) := fun _ => rfl

theorem powerGrant (t : Time) : Statement (.powerGrant t) := fun _ => rfl

theorem powerCeiling (t : Time) : Statement (.powerCeiling t) := fun _ => rfl

theorem setAttentionMask (t : Time) : Statement (.setAttentionMask t) := fun _ => rfl

theorem dataReady (t : Time) : Statement (.dataReady t) := fun _ => rfl

theorem sensorReadDone (t : Time) (reading : SensorReading) : Statement (.sensorReadDone t reading) := fun _ => rfl

theorem sensorExchangeDone (t : Time) : Statement (.sensorExchangeDone t) := fun _ => rfl

theorem stallTimerExpiry (t : Time) : Statement (.stallTimerExpiry t) := fun _ => rfl

theorem motionGrant (t : Time) : Statement (.motionGrant t) := fun _ => rfl

theorem poseRingWritten (t : Time) : Statement (.poseRingWritten t) := fun _ => rfl

theorem exchangeRecordWriteDone (t : Time) : Statement (.exchangeRecordWriteDone t) := fun _ => rfl

theorem rampTimerExpiry (t : Time) : Statement (.rampTimerExpiry t) := fun _ => rfl

theorem frameBoundary (t : Time) : Statement (.frameBoundary t) := fun _ => rfl

theorem consoleHalfReadDone (t : Time) : Statement (.consoleHalfReadDone t) := fun _ => rfl

theorem scanRowDue (t : Time) : Statement (.scanRowDue t) := fun _ => rfl

theorem litIntervalStart (t : Time) : Statement (.litIntervalStart t) := fun _ => rfl

theorem litIntervalEnd (t : Time) : Statement (.litIntervalEnd t) := fun _ => rfl

theorem copyGrant (t : Time) : Statement (.copyGrant t) := fun _ => rfl

theorem copyReadDone (t : Time) : Statement (.copyReadDone t) := fun _ => rfl

theorem copyWriteDone (t : Time) : Statement (.copyWriteDone t) := fun _ => rfl

theorem blockBoundary (t : Time) : Statement (.blockBoundary t) := fun _ => rfl

theorem cueEntryRead (t : Time) : Statement (.cueEntryRead t) := fun _ => rfl

theorem captureRecordWriteDone (t : Time) : Statement (.captureRecordWriteDone t) := fun _ => rfl

theorem powerSample (t : Time) (reading : Option MonitorReading) : Statement (.powerSample t reading) := fun _ => rfl

theorem housekeepingGrant (t : Time) : Statement (.housekeepingGrant t) := fun _ => rfl

theorem noticeEntryWriteDone (t : Time) : Statement (.noticeEntryWriteDone t) := fun _ => rfl

theorem noticeProducerWriteDone (t : Time) : Statement (.noticeProducerWriteDone t) := fun _ => rfl

theorem statusTimerExpiry (t : Time) : Statement (.statusTimerExpiry t) := fun _ => rfl

theorem bootWriteDone (t : Time) : Statement (.bootWriteDone t) := fun _ => rfl

theorem partHalfWriteDone (t : Time) : Statement (.partHalfWriteDone t) := fun _ => rfl

theorem restartWriteDone (t : Time) : Statement (.restartWriteDone t) := fun _ => rfl

theorem statusBlockWriteDone (t : Time) : Statement (.statusBlockWriteDone t) := fun _ => rfl

theorem motionAccessDone (t : Time) : Statement (.motionAccessDone t) := fun _ => rfl

theorem scanAccessDone (t : Time) : Statement (.scanAccessDone t) := fun _ => rfl

theorem audioGrant (t : Time) : Statement (.audioGrant t) := fun _ => rfl

theorem audioAccessDone (t : Time) : Statement (.audioAccessDone t) := fun _ => rfl

theorem codecFrame (t : Time) (mic : Frame) : Statement (.codecFrame t mic) := fun _ => rfl

end Sys2Proof.Laws.MessageForm
end

