-- ==== Sys2Proof/Tests/Slice0.lean ====
section
/-! SUPPORT. The model's own tests: ill-formed steps refused, the spec's worked examples, and for every statement a concrete
state and operands that meet its hypotheses. -/

namespace Sys2Proof.Machine

/-- No grant is due. -/
abbrev State.still (s : State) : Prop := s.granted = s

/-- A state behind a housekeeping access in service: no grant is due in it. -/
def State.behind (s : State) : State := { s with port := some ⟨.layoutTable, 0x100, .read 64, true⟩ }

end Sys2Proof.Machine

namespace Sys2Proof.Tests

open Sys2Proof.Machine

/-! ### Ill-formed steps, one for each check -/

theorem test_write_well_formed : (Instr.write 0 0x100 8 (List.replicate 8 1)).wellFormed = true := by decide
theorem test_write_unaligned_address : (Instr.write 0 0x102 8 (List.replicate 8 1)).wellFormed = false := by decide
theorem test_write_unaligned_length : (Instr.write 0 0x100 6 (List.replicate 6 1)).wellFormed = false := by decide
theorem test_write_too_short : (Instr.write 0 0x100 0 []).wellFormed = false := by decide
theorem test_write_too_long (data : List Byte) : (Instr.write 0 0x100 260 data).wellFormed = false := by
  simp [Instr.wellFormed, writeOk, lengthOk, Config.accessLimit]
theorem test_write_other_amount : (Instr.write 0 0x100 8 (List.replicate 4 1)).wellFormed = false := by decide
theorem test_read_well_formed : (Instr.read 0 0x100 256 31).wellFormed = true := by decide
theorem test_read_unaligned_address : (Instr.read 0 0x101 8 0).wellFormed = false := by decide
theorem test_read_unaligned_length : (Instr.read 0 0x100 9 0).wellFormed = false := by decide
theorem test_read_too_long : (Instr.read 0 0x100 260 0).wellFormed = false := by decide
theorem test_read_tag : (Instr.read 0 0x100 8 32).wellFormed = false := by decide
theorem test_flash_block : (Instr.bootRecordRead 0 (some ⟨0, 0, [1, 2, 3]⟩)).wellFormed = false := by decide

/-! ### Messages (section 11.2) -/

theorem test_message_write : decodeMessage 5 true [0x01, 0, 4, 0, 0x40, 0x01, 0, 0, 1, 2, 3, 4] =
    .write 5 0x140 4 [1, 2, 3, 4] := by decide
theorem test_message_read : decodeMessage 5 true [0x02, 31, 0, 1, 0, 0, 0, 0x10] = .read 5 0x10000000 256 31 := by decide
theorem test_message_time_mark : decodeMessage 5 true [0x03, 9, 0, 0, 1, 0, 0, 0, 2, 0, 0, 0] =
    .timeMark 5 9 0x200000001 := by decide
theorem test_message_fails_check : decodeMessage 5 false [0x02, 31, 0, 1, 0, 0, 0, 0x10] = .badMessage 5 := by decide
theorem test_message_unknown_kind : decodeMessage 5 true [0x04, 0, 0, 0] = .badMessage 5 := by decide

/-! ### The spec's worked examples -/

/-- The table of R54. -/
theorem test_accumulate : accumulate 0 1600 1000 0 = (6553, 600000) ∧ accumulate 0 1600 1000 600000 = (6554, 200000) ∧
    accumulate 0 (-320) 1000 0 = (BitVec.ofInt 32 (-1311), 280000) := by decide

/-- The examples of R52: a clamp, and a value read at the limit. -/
theorem test_corrected_rate :
    (AxisSource.mk .z false).corrected ⟨0, 0, 32760⟩ (-16) = 32767 ∧
    (AxisSource.mk .z false).corrected ⟨0, 0, 32767⟩ 8 = 32759 ∧
    (AxisSource.mk .z false).saturates ⟨0, 0, 32767⟩ 8 = true ∧
    (AxisSource.mk .z true).mapped ⟨-324, 12, 1608⟩ = -1608 := by decide

/-- The boot record of section 2.1.1: frame period, axis map and one sensor rate cap replaced. -/
def faultyBlock : List Byte :=
  leBytes 2 1440 ++ leBytes 2 1600 ++ leBytes 4 25000 ++ leBytes 4 1500 ++ leBytes 1 48 ++ leBytes 1 32 ++ leBytes 2 0x1A80 ++
    leBytes 2 0x1A80 ++ [0, 0, 2, 2, 1, 0] ++ List.replicate 8 0 ++ leBytes 4 4500 ++ leBytes 4 4400 ++
    (defaultLevels.toList.mapIdx fun n c => if n = 3 then leBytes 2 1200 ++ leBytes 2 16423 ++ leBytes 4 1500 else c.bytes).flatten ++
    List.replicate 88 0

theorem test_faulty_boot_record :
    bootFrom (some ⟨bootMarker, 192, faultyBlock⟩) = ({ defaultSettings with litOffset := 1500 }, .flash, true) ∧
    bootFrom (some ⟨bootMarker, 184, faultyBlock⟩) = (defaultSettings, .defaults, false) := by decide

theorem test_slot_size : defaultSettings.slotSize = 20447488 := by decide

/-- The layout of section 2.2.1. -/
def layout : Layout := ⟨⟨0x00100000, 20447488⟩, ⟨0x05000000, 1024⟩, ⟨0x05010000, 48000⟩, ⟨0x05040000, 256⟩⟩

theorem test_layout_sound : layout.fault 20447488 = none ∧ layout.slotBase 2 = 0x02800200 := by decide
theorem test_layout_size : { layout with frameArea.size := 20447232 }.fault 20447488 = some (0, .size) := by decide
theorem test_layout_faults :
    { layout with poseRing.base := 0x05000080 }.fault 20447488 = some (1, .align) ∧
    { layout with playback.base := 0x1FFFFF00 }.fault 20447488 = some (2, .outside) ∧
    { layout with capture.base := 0xF00 }.fault 20447488 = some (3, .anchor) ∧
    { layout with playback := ⟨0xF80, 0⟩ }.fault 20447488 = some (2, .size) := by decide
theorem test_layout_overlap : { layout with poseRing.base := 0x04F00000 }.fault 20447488 = some (0, .overlap) := by decide

/-- The late shift of section 6.9, and its stalled case of section 6.10. -/
theorem test_late_shift :
    predictAxis 10551296 1600 3200 = 10572267 ∧ predictAxis (BitVec.ofInt 32 (-131072)) (-320) 3200 = BitVec.ofInt 32 (-135267) ∧
    rotationShift (angleDiff 10572267 10485760) 6784 = -35 ∧
    rotationShift (angleDiff (BitVec.ofInt 32 (-135267)) (BitVec.ofInt 32 (-163840))) 6784 = -12 ∧
    rotationShift 65536 6784 = -27 ∧
    (shiftResults defaultSettings ⟨2, -2⟩ (-35) (-12) false false).shift = ⟨-33, -37, -12⟩ ∧
    (shiftResults defaultSettings ⟨2, -2⟩ (-300) (-12) false false) = ⟨⟨-48, -48, -12⟩, true, false, false, false⟩ := by decide

/-- The first pixel reads of section 6.9. -/
theorem test_scan_addresses :
    let n := Scan.start defaultSettings 0x02800200 2 ⟨-33, -37, -12⟩
    n.access defaultSettings = ⟨.pixels .left, 0x0283C27C, .read 256, true⟩ ∧
    { n with eye := .right }.access defaultSettings = ⟨.pixels .right, 0x0283DA6C, .read 256, true⟩ := by decide

theorem test_sample_power : samplePower ⟨5012, 939⟩ = 4706 ∧ samplePower ⟨30000, 9000⟩ = 192000 := by decide

/-! ### Small states -/

/-- A part that is READY, with nothing at the port. -/
def ready : State := { State.reset with port := none, hku.part := .ready, hku.source := some .defaults }

/-- The same with the layout of section 2.2.1. -/
def laid : State := { ready with hku.layout := some layout }

/-- The same with the link UP. -/
def linked : State := { laid with tiu.link := .up }

/-- A state with an access at the port. -/
def State.at (s : State) (kind : AccessKind) (addr : Nat) (transfer : Transfer) (live : Bool := true) : State :=
  { s with port := some ⟨kind, addr, transfer, live⟩ }

/-- A state with one watched-word event being raised. -/
def State.raises (s : State) (w : Watched) (v : Word) : State := { s with tiu.service := .raising [(w, v)] }

/-- A command record: code, tag 7, parameters, padded to 32 bytes. -/
def record (code : Nat) (params : List Nat) : Record :=
  let bytes := leBytes 2 code ++ leBytes 2 7 ++ (params.map (leBytes 4)).flatten
  recordOf (bytes ++ List.replicate (32 - bytes.length) 0)

/-- A state taking a command. -/
def State.takes (s : State) (code : Nat) (params : List Nat) : State := { s with hku.work := .taking (record code params) }

/-- A pose record with a sequence. -/
def pose (q : Word) : PoseRecord := ⟨q, 1000, ⟨0, 0, 0⟩, ⟨0, 0, 0⟩, ⟨0, 0, 0⟩⟩

/-- A slot record in a state. -/
def slot (x : SlotState) : Slot := { Slot.initial with state := x, submitValue := 5 }

/-- A display in a state, with a boundary due at time 100. -/
def display (d : DisplayState) (queue : List (Fin 4)) (a b c e : SlotState) : State :=
  { laid with
    fcu := { Fcu.initial with
      slots := #v[slot a, slot b, slot c, slot e], queue := queue, display := d, boundary := some 100, ramp := some 100 } }

/-- Motion in a state, with a record at the head of the list. -/
def moving : State :=
  { laid with
    mu := { Mu.initial with motion := .running, stall := some 0, pub.list := [pose 1, pose 2], pub.nextSeq := some 3 } }

/-- A COPY job over two rows of 300 bytes. -/
def job : Job := ⟨7, .copy, 0x10000000, 0x11000000, 300, 2, 512, 512, 0, false, [], false⟩

/-- Two jobs in the queue. -/
def copying : State := { laid with ce.jobs := [job, { job with tag := 8 }] }

/-! ### Every hypothesis of every statement is met -/

theorem witness_StepRunsFrontCommand :
    { ready with pending := [.powerOn] }.pending = [.powerOn] ∧ ready.pending = [] := by decide

def offered : Access := ⟨.inboundRead 3, 0x100, .read 4, true⟩

theorem witness_SettleGrantsThePort :
    State.reset.port = some bootIdentityAccess ∧
    (let s := { laid with ssu.chosen := some 0 }
     s.port = none ∧ s.scanWaiting = some ⟨.consoleHalf 0, 0x00100000, .read 32, true⟩) ∧
    (let s := { laid with tiu.service := .presented offered }
     s.port = none ∧ s.scanWaiting = none ∧ s.au.waiting = [] ∧ s.tiu.service = .presented offered) ∧
    (let s := { laid with tiu.service := .presented offered, au.waiting := [⟨.playConsumer, false, false⟩] }
     s.port = none ∧ s.scanWaiting = none ∧ s.au.waiting ≠ []) ∧
    (ready.port = none ∧ ready.scanWaiting = none ∧ ready.inboundWaiting = false) ∧
    (let s := { linked with tiu.flowOut := [.hold] }
     s.tiu.link = .up ∧ s.tiu.sending = none ∧ s.tiu.flowOut ≠ []) ∧
    (let s := { linked with tiu.order := [.attention 0 1] }
     s.tiu.link = .up ∧ s.tiu.sending = none ∧ s.tiu.flowOut = [] ∧ s.tiu.order ≠ []) ∧
    ready.tiu.link = .down ∧ { linked with tiu.sending := some .flow }.tiu.sending ≠ none ∧
    (linked.tiu.flowOut = [] ∧ linked.tiu.order = []) := by decide

/-- A grant of each client below the inbound client is due, and one is not due behind each thing that holds it back. -/
theorem witness_SettleGrantsThePort_due :
    (let s := { laid with au.waiting := [⟨.playConsumer, false, false⟩] }
     s.port = none ∧ s.scanWaiting = none ∧ s.au.waiting ≠ []) ∧
    (moving.port = none ∧ moving.scanWaiting = none ∧ moving.au.waiting = [] ∧ moving.inboundWaiting = false ∧
      moving.mu.pub.due ≠ none) ∧
    (let s := { laid with hku.consumerDue := true }
     s.port = none ∧ s.scanWaiting = none ∧ s.au.waiting = [] ∧ s.inboundWaiting = false ∧ s.mu.pub.due = none ∧
       s.housekeepingDue = some .commandConsumer) ∧
    (let s := { copying with hku.latest := 1 }
     s.port = none ∧ s.scanWaiting = none ∧ s.au.waiting = [] ∧ s.inboundWaiting = false ∧ s.mu.pub.due = none ∧
       s.housekeepingDue = some .commandRecord) ∧
    (copying.port = none ∧ copying.scanWaiting = none ∧ copying.au.waiting = [] ∧ copying.inboundWaiting = false ∧
      copying.mu.pub.due = none ∧ copying.housekeepingDue = none) ∧
    (State.at moving .ringRecord 0 (.write [])).port = some ⟨.ringRecord, 0, .write [], true⟩ ∧
    { moving with ssu.chosen := some 0 }.scanWaiting ≠ none ∧
    (let s := { moving with tiu.service := .presented offered }
     s.au.waiting = [] ∧ s.inboundWaiting = true) := by decide

/-- The record at the head of the publication list goes to the ring before a row becomes due, and the row's pixels wait for it
(R19). -/
theorem test_due_grant_first :
    let s := { moving with
      ssu.scan := some (Scan.start defaultSettings 0x02800200 2 ⟨0, 0, 0⟩), ssu.rowsDue := 0 }
    ∃ u, exec (.scanRowDue 0) s = .next u ∧ u.ssu.rowsDue = 1 ∧ u.mu.pub.headGranted = true ∧
      u.port.map Access.addr = some 0x05000000 ∧ u.scanWaiting.isSome := ⟨_, rfl, by decide⟩

/-- The read of a command record, which leaves the port free, and the grant to the copy client behind it. -/
theorem test_due_record_then_copy :
    let s := { copying with hku.latest := 1 }
    ∃ r, s.granted.hku.work = .taking r ∧ s.granted.port.map Access.kind = some .copyRead := ⟨_, rfl, rfl⟩

theorem witness_BootLoadSteps :
    (State.reset.port = some bootIdentityAccess ∧ bootIdentityAccess.stop ≤ Config.dramSize ∧
      bootIdentityAccess.kind = .bootIdentity) ∧
    Hku.initial.bootFieldsAccess.stop ≤ Config.dramSize ∧ Hku.initial.bootFieldsAccess.kind = .bootFields ∧
    Hku.initial.bootSettingsAccess.stop ≤ Config.dramSize ∧ Hku.initial.bootSettingsAccess.kind = .bootSettings := by
  decide +kernel

theorem witness_BootLoadSteps_zero : ∀ k : Fin 15,
    { ready with port := some (bootZeroAccess k) }.port = some (bootZeroAccess k) ∧
      (bootZeroAccess k).stop ≤ Config.dramSize ∧ (bootZeroAccess k).kind = .bootZero k := by decide +kernel

theorem witness_BootRecordSettings :
    (let s := { State.reset with port := none, hku.flashDue := true }
     s.still ∧ s.hku.flashDue = true ∧ s.port = none) ∧
    ¬ ((⟨0, 192, []⟩ : FlashRecord).marker = 0x5A170720) ∧
    (⟨0x5A170720, 192, faultyBlock⟩ : FlashRecord).marker = 0x5A170720 ∧
    (let axis (n : Nat) := fieldAt faultyBlock n 1 % 4
     axis 20 = axis 21 ∧ axis 22 = 1) ∧
    (let axis (n : Nat) := fieldAt defaultSettings.bytes n 1 % 4
     axis 20 = 2 ∧ axis 21 = 0 ∧ axis 22 = 1) ∧
    fieldAt faultyBlock (44 + 8 * 3) 2 = 1500 ∧ fieldAt faultyBlock (40 + 8 * 7) 2 = 2000 ∧
    fieldAt (List.replicate 192 0) 40 2 < 100 ∧ 32768 < fieldAt (List.replicate 192 255) (42 + 8 * 7) 2 := by decide

/-- A record of the defaults is accepted whole. -/
theorem test_default_boot_record :
    bootFrom (some ⟨bootMarker, 192, defaultSettings.bytes⟩) = (defaultSettings, .flash, false) := by decide

def requests (n : Nat) : State := { linked with tiu.queue := List.replicate n (.write 0x1000 4 [1, 2, 3, 4]) }

theorem witness_LinkWorks :
    (ready.still ∧ ready.hku.part = .ready ∧ ready.tiu.link = .down ∧ ready.tiu.flow = .running ∧ ready.tiu.queue.length < 48) ∧
    (let s := { requests 48 with tiu.link := .down }
     s.still ∧ s.hku.part = .ready ∧ s.tiu.link = .down ∧ s.tiu.flow = .running ∧ 48 ≤ s.tiu.queue.length) ∧
    linked.still ∧ linked.tiu.link = .up ∧ (0x102 : Word).toNat % 4 ≠ 0 ∧ ¬ (32 : Byte).toNat < 32 := by decide

theorem witness_WriteArrives :
    (∀ n ∈ [0, 46, 47, 63, 64], (requests n).still ∧ (requests n).tiu.link = .up) ∧
    (linked.still ∧ linked.tiu.link = .up ∧ (0x100 : Word).toNat % 4 = 0 ∧ (4 : Half).toNat % 4 = 0 ∧ 4 ≤ (256 : Half).toNat ∧
      (256 : Half).toNat ≤ 256 ∧ [(1 : Byte), 2, 3, 4].length = (4 : Half).toNat) ∧
    0x20000000 < (0x1FFFFFFC : Word).toNat + (8 : Half).toNat ∧ (0x1FFFFFFC : Word).toNat + (4 : Half).toNat ≤ 0x20000000 ∧
    64 ≤ (requests 64).tiu.queue.length ∧ (requests 63).tiu.queue.length < 64 ∧
    ((requests 47).tiu.queue.length = 47 ∧ (requests 47).tiu.flow = .running) ∧ (requests 46).tiu.queue.length ≠ 47 := by
  decide

theorem witness_ReadArrives :
    (∀ n ∈ [0, 47, 64], (requests n).still ∧ (requests n).tiu.link = .up) ∧ linked.still ∧
    { linked with tiu := linked.tiu.setTag 31 .outstanding }.still ∧
    (31 : Byte).toNat = (31 : Fin 32).val ∧ linked.tiu.tags[(31 : Fin 32)] = .free ∧
    { linked with tiu := linked.tiu.setTag 31 .outstanding }.tiu.tags[(31 : Fin 32)] = .outstanding ∧
    64 ≤ (requests 64).tiu.queue.length ∧ (requests 64).tiu.tags[(31 : Fin 32)] = .free ∧
    ((requests 47).tiu.queue.length = 47 ∧ (requests 47).tiu.flow = .running) := by decide

theorem witness_NoticePosted :
    (let s := { linked with hku.noticeProducer := 63 }
     (s.hku.noticeProducer - s.hku.noticeConsumer).toNat < 64) ∧
    (let s := { linked with hku.noticeProducer := 64 }
     64 ≤ (s.hku.noticeProducer - s.hku.noticeConsumer).toNat) ∧ linked.still ∧ linked.tiu.link = .up := by decide

/-- A WRITE that is landing in part: the command consumer word is refused. -/
theorem witness_RequestTaken :
    (let s := { requests 17 with tiu.flow := .held }
     s.tiu.queue = .write 0x1000 4 [1, 2, 3, 4] :: List.replicate 16 (.write 0x1000 4 [1, 2, 3, 4]) ∧
       s.still ∧ s.tiu.service = .idle ∧ s.tiu.flow = .held) ∧
    (let s := { linked with tiu.queue := [.read 0x100 4 3] }
     s.still ∧ s.tiu.queue = [.read 0x100 4 3] ∧ s.tiu.service = .idle) ∧
    linked.landing 0x140 [1, 2, 3, 4, 5, 6, 7, 8] = [some 1, some 2, some 3, some 4, none, none, none, none] ∧
    linked.hku.permit = true := by decide

theorem witness_RequestsAnswered :
    (let s := State.at linked (.inboundWrite [(.commandProducer, 0x140)]) 0x140 (.write [some 1, some 0, some 0, some 0])
     s.port.map Access.stop = some 0x144) ∧
    (let s := State.at linked (.inboundRead 3) 0x1FFFFFFC (.read 4)
     s.port.map Access.stop = some Config.dramSize ∧ s.tiu.link = .up) ∧
    (State.at ready (.inboundRead 3) 0 (.read 4)).tiu.link = .down ∧
    (let s := { linked with tiu.sending := some .flow, tiu.flowOut := [.hold] }
     s.still ∧ s.tiu.sending = some .flow ∧ s.tiu.flowOut = [.hold]) ∧
    (let s := { linked with tiu.sending := some .order, tiu.order := [.attention 0 1] }
     s.still ∧ s.tiu.sending = some .order ∧ s.tiu.order = [.attention 0 1]) ∧
    (let s := { linked with tiu.sending := some .order, tiu.order := [.readData 3 .ok [1]] }
     s.still ∧ s.tiu.sending = some .order ∧ s.tiu.order = [.readData 3 .ok [1]]) ∧
    Upstream.isRefusal (.readData 3 .refusedFull []) = true ∧ Upstream.isAttention (.attention 0 1) = true := by decide

theorem witness_HousekeepingWordsTaken :
    (∀ w v, (State.raises linked w v).still) ∧
    (let s := { (State.takes linked 0x11 []) with tiu.service := .raising [(.commandProducer, 33)] }
     s.still ∧ s.tiu.service = .raising [(.commandProducer, 33)] ∧ s.hku.work ≠ .idle) ∧
    (let s := State.raises linked .commandProducer 32
     s.hku.work = .idle ∧ 0 ≤ ((32 : Word) - s.hku.consumer).toInt ∧ ((32 : Word) - s.hku.consumer).toInt ≤ 32 ∧
       32 < ((33 : Word) - s.hku.consumer).toInt ∧ ((0xFFFFFFFF : Word) - s.hku.consumer).toInt < 0) ∧
    (State.raises linked .noticeConsumer 4).tiu.service = .raising [(.noticeConsumer, 4)] :=
  ⟨fun _ _ => rfl, by decide⟩

def held (missed : Bool) : State :=
  { moving with mu.pub.exchange := ⟨.ex0, 1, 2, missed, true, false, false⟩, tiu.service := .raising [(.poseHold, 0)] }

theorem witness_PoseHoldTaken :
    ((State.raises moving .poseHold 1).behind.still ∧
      (State.raises moving .poseHold 1).behind.tiu.service = .raising [(.poseHold, 1)] ∧ (1 : Word) ≠ 0) ∧
    (let s := (held true).behind
     s.still ∧ s.tiu.service = .raising [(.poseHold, 0)] ∧ s.mu.motion ≠ .off ∧
       s.mu.pub.exchange.resetDue = false ∧ s.mu.pub.exchange.missed = true) ∧
    ((held false).behind.still ∧ (held false).behind.mu.pub.exchange.missed = false) ∧
    (let s := State.raises laid .poseHold 0
     s.still ∧ s.mu.motion = .off) := by decide

/-- Step 13 of section 4.7: record 7 waits for its exchange write, and the release falls together with the motion grant. -/
def release : State :=
  { laid with
    mu := { Mu.initial with
      motion := .running, stall := some 0, pub.pending := some (pose 7), pub.exchange := ⟨.ex0, 5, 6, true, true, false, false⟩ }
    tiu.service := .raising [(.poseHold, 0)] }

/-- Each watched-word event may fall together with a grant that is due. -/
theorem witness_events_fall_together :
    release.granted ≠ release ∧ (0 : Time) = release.now ∧
    ∀ w ∈ [Watched.commandProducer, .noticeConsumer, .poseHold, .playbackProducer, .captureConsumer, .cueRequest, .submit 3],
      { release with tiu.service := .raising [(w, 1)] }.granted.port.isSome := by decide

/-- The release is taken first: the exchange flips at the event, no access is made, and the indicator write is the grant that follows,
with the exchange write of record 7 behind it. -/
theorem test_release_before_grant :
    ∃ u, exec (.poseHold 0) release = .next u ∧ u.mu.pub.exchange = ⟨.ex1, 6, 5, false, false, false, true⟩ ∧ u.port = none ∧
      u.mu.pub.due = some .indicator ∧ u.mu.pub.pending = some (pose 7) := ⟨_, rfl, by decide⟩

/-- The release at a later time finds the exchange write of record 7 granted, into the back of before the flip. -/
theorem test_release_after_grant :
    ∃ u, exec (.poseHold 1) release = .next u ∧ u.mu.pub.exchange.front = .ex1 ∧ u.port.map Access.addr = some 0x1E0 :=
  ⟨_, rfl, by decide⟩

theorem witness_AudioWordsTaken :
    (∀ w v, (State.raises linked w v).still) ∧
    (State.raises linked .playbackProducer 9).tiu.service = .raising [(.playbackProducer, 9)] ∧
    ((State.raises linked .captureConsumer 9).tiu.service = .raising [(.captureConsumer, 9)] ∧
      (State.raises linked .captureConsumer 9).hku.layout = some layout) ∧
    (let s := { (State.raises ready .captureConsumer 9) with au.captureProducer := 20 }
     s.still ∧ s.tiu.service = .raising [(.captureConsumer, 9)] ∧ s.hku.layout = none) ∧
    ((State.raises linked .cueRequest 3).tiu.service = .raising [(.cueRequest, 3)] ∧ (3 : Word).getLsbD 31 = false) ∧
    ((State.raises linked .cueRequest 0x80000102).au.pendingCue = none ∧ (0x80000102 : Word).getLsbD 31 = true) ∧
    (let s := { (State.raises linked .cueRequest 0x80000102) with au.pendingCue := some (1, .mix) }
     s.still ∧ s.au.pendingCue = some (1, .mix)) :=
  ⟨fun _ _ => rfl, by decide⟩

theorem witness_SlotSubmitted :
    (∀ v, (State.raises linked (.submit 3) v).still) ∧
    (State.raises linked (.submit 3) 1).tiu.service = .raising [(.submit 3, 1)] ∧
    (State.raises linked (.submit 3) 1).fcu.slots[(3 : Fin 4)].state = .free ∧
    (State.raises linked (.submit 3) 1).fcu.slots[(3 : Fin 4)].copyPending = 0 ∧ (1 : Word) ≠ 0 ∧
    (let s := { (State.raises linked (.submit 3) 1) with fcu := linked.fcu.update 3 fun x => { x with copyPending := 4 } }
     s.still ∧ s.fcu.slots[(3 : Fin 4)].state = .free ∧ s.fcu.slots[(3 : Fin 4)].copyPending ≠ 0) :=
  ⟨fun _ => rfl, by decide⟩

theorem witness_TakingEnds :
    (let s := { linked with hku.latest := 32 }
     0 ≤ (s.hku.latest - s.hku.consumer).toInt ∧ (s.hku.latest - s.hku.consumer).toInt ≤ 32) ∧
    32 < ({ linked with hku.latest := 33 }.hku.latest - linked.hku.consumer).toInt ∧
    ({ linked with hku.latest := 0xFFFFFFFF }.hku.latest - linked.hku.consumer).toInt < 0 ∧
    (State.takes linked 0x12 []).still ∧ (State.takes linked 0x12 []).hku.work = .taking (record 0x12 []) ∧
    (record 0x12 []).code.toNat ∉ [0x10, 0x11, 0x20, 0x21, 0x28, 0x30, 0x31, 0x32, 0x40, 0x41, 0x42, 0x43, 0x44, 0x50, 0x51,
      0x52, 0x60, 0x61, 0x70] := by decide

theorem witness_ApplyLayoutChecked :
    (State.takes linked 0x10 []).hku.work = .taking (record 0x10 []) ∧ (record 0x10 []).code = 0x0010 ∧
    (let s := State.takes linked 0x10 []
     s.still ∧ s.fcu.display = .off ∧ s.mu.motion = .off ∧ s.au.playback = .stopped ∧ s.au.capturing = false ∧ s.ce.jobs = [] ∧
       s.au.waiting = [] ∧ s.port = none) ∧
    (State.takes moving 0x10 []).behind.still ∧ (State.takes moving 0x10 []).behind.mu.motion ≠ .off := by decide

/-- Memory that holds a region table. -/
def tableAt (l : Layout) : Memory :=
  let entry (r : Region) : List Byte := leBytes 4 r.base ++ leBytes 4 r.size ++ List.replicate 8 0
  (entry l.frameArea ++ entry l.poseRing ++ entry l.playback ++ entry l.capture).mapIdx fun n b => (0x100 + n, b)

def readTable (l : Layout) : State :=
  { (State.at ready .layoutTable 0x100 (.read 64)) with mem := tableAt l, hku.work := .tableReading (record 0x10 []) }

theorem witness_LayoutApplied :
    (readTable layout).port = some ⟨.layoutTable, 0x100, .read 64, true⟩ ∧
    (readTable layout).hku.work = .tableReading (record 0x10 []) ∧
    (layoutOf ((readTable layout).mem.readBytes 0x100 64)).fault (readTable layout).hku.settings.slotSize = none ∧
    (let l := { layout with poseRing.base := 0x04F00000 }
     (layoutOf ((readTable l).mem.readBytes 0x100 64)).fault (readTable l).hku.settings.slotSize = some (0, .overlap)) ∧
    (let s := { (State.at laid (.partHalf 3) 0x03B80320 (.write [])) with hku.work := .halves [3] }
     s.hku.work = .halves [3] ∧ [(3 : Fin 4)].erase 3 = [] ∧ [(2 : Fin 4), 3].erase 3 ≠ []) ∧
    laid.hku.work = .idle := by decide +kernel

theorem witness_RestartTaken :
    (State.takes laid 0x11 []).hku.work = .taking (record 0x11 []) ∧ (record 0x11 []).code = 0x0011 ∧
    ((State.takes laid 0x11 []).still ∧ (State.takes laid 0x11 []).port = none) ∧
    (State.at (State.takes laid 0x11 []) .copyRead 0 (.read 4)).still ∧
    (State.at (State.takes laid 0x11 []) .copyRead 0 (.read 4)).port = some ⟨.copyRead, 0, .read 4, true⟩ ∧
    (State.at (State.takes laid 0x11 []) .statusSecond 0x300 (.write [])).port = some ⟨.statusSecond, 0x300, .write [], true⟩ ∧
    laid.mu.motion = .off ∧
    (let s := (State.takes moving 0x11 []).behind
     s.still ∧ s.mu.motion ≠ .off ∧ s.mu.sensor.busy = none) ∧
    (let s := { (State.takes moving 0x11 []).behind with mu.sensor.busy := some (.read 5 true) }
     s.still ∧ s.mu.motion ≠ .off ∧ s.mu.sensor.busy = some (.read 5 true)) ∧
    (let s := { (State.takes moving 0x11 []).behind with mu.sensor.busy := some (.config .hz500) }
     s.still ∧ s.mu.motion ≠ .off ∧ s.mu.sensor.busy = some (.config .hz500)) := by decide

theorem witness_RestartWrites :
    (let s := { (State.at laid .restart 0x00100020 (.read 4)) with hku.work := .restarting [.slotRead 0, .words] }
     s.port = some ⟨.restart, 0x00100020, .read 4, true⟩ ∧ s.hku.work = .restarting [.slotRead 0, .words]) ∧
    (let s := { (State.at laid .restart 0x140 (.write [])) with hku.work := .restarting [.words, .notices 0] }
     s.hku.work = .restarting [.words, .notices 0] ∧ ∀ k : Fin 4, RestartStep.words ≠ .slotRead k) ∧
    (let s := { (State.at laid .restart 0xB00 (.write [])) with hku.work := .restarting [.notices 3] }
     s.hku.work = .restarting [.notices 3]) ∧
    laid.hku.layout = some layout ∧ laid.restartAccess (.slotRead 1) = ⟨.restart, 0x01480120, .read 4, true⟩ := by decide

theorem witness_DisplayStarts :
    (record 0x20 [15, 100, 0]).code = 0x0020 ∧ fieldAt (record 0x20 [15, 100, 0]).bytes 4 4 = 15 ∧
    fieldAt (record 0x20 [15, 100, 0]).bytes 8 4 = 100 ∧ fieldAt (record 0x20 [16, 100, 0]).bytes 4 4 = 16 ∧
    (State.takes ready 0x20 [15, 100, 0]).still ∧ (State.takes laid 0x20 [15, 100, 0]).still ∧
    (State.takes laid 0x20 [16, 100, 0]).still ∧ ready.hku.layout = none ∧ laid.hku.layout ≠ none ∧ laid.fcu.display = .off ∧
    (let s := State.takes (display .blank [] .free .free .free .free) 0x20 [15, 100, 0]
     s.still ∧ s.fcu.display ≠ .off) := by decide

theorem witness_DisplayStops :
    (record 0x21 []).code = 0x0021 ∧ (State.takes laid 0x21 []).still ∧ laid.fcu.display = .off ∧
    (∀ d ∈ [DisplayState.powering, .blank, .showing],
      (State.takes (display d [] .free .free .free .free) 0x21 []).still) ∧
    (State.takes laid 0x28 [0xFFFFFFC0, 63]).still ∧ (State.takes laid 0x28 [64, 0]).still ∧
    (display .powering [] .free .free .free .free).fcu.display = .powering ∧
    (display .showing [] .free .free .free .showing).fcu.display = .showing ∧ (record 0x28 []).code = 0x0028 ∧
    signedAt (record 0x28 [0xFFFFFFC0, 63]).bytes 4 4 = -64 ∧ signedAt (record 0x28 [0xFFFFFFC0, 63]).bytes 8 4 = 63 ∧
    signedAt (record 0x28 [64, 0]).bytes 4 4 = 64 := by decide

theorem witness_MotionStarts :
    (record 0x30 [4, 1000]).code = 0x0030 ∧ fieldAt (record 0x30 [8, 2000]).bytes 4 4 = 8 ∧
    fieldAt (record 0x30 [8, 2000]).bytes 8 4 = 2000 ∧ Rate.hz2000.hz = 2000 ∧
    fieldAt (record 0x30 [9, 2000]).bytes 4 4 = 9 ∧ fieldAt (record 0x30 [1, 700]).bytes 8 4 = 700 ∧
    (∀ q ∈ [[4, 1000], [9, 2000], [1, 700], [8, 2000]], (State.takes laid 0x30 q).still) ∧ (State.takes ready 0x30 [4, 1000]).still ∧
    ready.hku.layout = none ∧ laid.hku.layout ≠ none ∧ laid.mu.motion = .off ∧
    (let s := (State.takes moving 0x30 [4, 1000]).behind
     s.still ∧ s.mu.motion ≠ .off) ∧
    laid.mu.sensor.busy = none ∧ laid.mu.sensor.stopWaiting = false ∧
    (let s := { (State.takes laid 0x30 [8, 2000]) with mu.sensor.busy := some .stop }
     s.still ∧ s.mu.sensor.busy ≠ none) := by decide

theorem witness_MotionStops :
    ((State.takes laid 0x31 []).still ∧ (State.takes laid 0x31 []).hku.work = .taking (record 0x31 []) ∧
      (record 0x31 []).code = 0x0031 ∧ laid.mu.motion = .off) ∧
    (∀ e ∈ [none, some (.read 5 true), some .stop],
      let s := { (State.takes moving 0x31 []).behind with mu.sensor.busy := e }
      s.still ∧ s.mu.motion ≠ .off ∧ s.mu.sensor.busy = e) ∧
    (let s := State.takes moving 0x31 []
     (State.at s .indicator 0x154 (.write [])).still ∧ (State.at s .indicator 0x154 (.write [])).port.isSome) ∧
    (State.takes laid 0x32 [0xFFFF0001, 2]).still ∧ (record 0x32 [0xFFFF0001, 2]).code = 0x0032 := by decide

/-- A read in progress, with the data-ready of time 2,000, behind an access of another client. -/
def reading (wanted : Bool) : State :=
  { moving.behind with mu.sensor.busy := some (.read 2000 wanted), mu.lastTime := 1000, mu.first := false }

theorem witness_SampleIntegrated :
    (∀ x : Mu, { (reading true) with mu := x }.still) ∧
    ((reading false).still ∧ (reading false).mu.sensor.busy = some (.read 2000 false)) ∧
    ((reading true).mu.sensor.busy = some (.read 2000 true) ∧ (reading true).mu.motion ≠ .stalled ∧
      ((reading true).mu.samples + 1) % (reading true).mu.decimation = 0 ∧ (reading true).mu.pub.nextSeq = some 3 ∧
      (reading true).mu.pub.list.length < 8) ∧
    8 ≤ { (reading true) with mu.pub.list := List.replicate 8 (pose 1) }.mu.pub.list.length ∧
    { (reading true) with mu.motion := .stalled }.mu.motion = .stalled ∧
    { (reading true) with mu.pub.nextSeq := none }.mu.pub.nextSeq = none ∧
    (let s := { (reading true) with mu.decimation := 3 }
     (s.mu.samples + 1) % s.mu.decimation ≠ 0) ∧
    (reading true).mu.commanded.hz ≤ (defaultSettings.levels[(7 : Fin 8)]).rate.hz ∧
    { (reading true) with mu.commanded := .hz2000 }.mu.commanded ≠ (reading true).mu.inUse :=
  ⟨fun _ => rfl, by decide⟩

theorem witness_SensorPortWorks :
    (let m := { Mu.initial with sensor.busy := some .stop }
     m.sensor.busy ≠ none) ∧
    (let m := { Mu.initial with sensor.stopWaiting := true, sensor.configWaiting := true, sensor.rateWaiting := some .hz500 }
     m.sensor.busy = none ∧ m.sensor.stopWaiting = true) ∧
    (let m := { Mu.initial with sensor.configWaiting := true, sensor.rateWaiting := some .hz500, sensor.ready := some 4 }
     m.sensor.busy = none ∧ m.sensor.stopWaiting = false ∧ m.sensor.configWaiting = true) ∧
    (let m := { Mu.initial with sensor.rateWaiting := some .hz500, sensor.ready := some 4 }
     m.sensor.busy = none ∧ m.sensor.stopWaiting = false ∧ m.sensor.configWaiting = false ∧
       m.sensor.rateWaiting = some .hz500) ∧
    (let m := { Mu.initial with sensor.ready := some 4 }
     m.sensor.busy = none ∧ m.sensor.stopWaiting = false ∧ m.sensor.configWaiting = false ∧ m.sensor.rateWaiting = none ∧
       m.sensor.ready = some 4) ∧
    (laid.still ∧ laid.mu.motion = .off) ∧ moving.behind.mu.motion ≠ .off ∧
    (∀ e ∈ [Exchange.config .hz500, .rate .hz500, .stop],
      { moving.behind with mu.sensor.busy := some e }.still ∧ { moving.behind with mu.sensor.busy := some e }.mu.sensor.busy = some e) ∧
    (moving.behind.still ∧ moving.mu.motion = .running ∧ moving.mu.stall = some 0 ∧ (20000 : Time) = 0 + 20000) := by decide

/-- The premises of MOTION_GRANT, for a state that has motion work due. -/
def motionFree (s : State) : Bool :=
  s.port.isNone && s.scanWaiting.isNone && s.au.waiting.isEmpty && !s.inboundWaiting && s.hku.layout == some layout

theorem witness_MotionGranted :
    (let s := { moving with mu.pub.exchange.resetDue := true, mu.pub.ringRestartDue := true }
     motionFree s ∧ s.mu.pub.exchange.resetDue = true ∧ s.mu.pub.exchange.hold = false) ∧
    (let s := { moving with
        mu.pub.exchange.resetDue := true, mu.pub.exchange.hold := true, mu.pub.ringRestartDue := true }
     motionFree s ∧ ¬ (s.mu.pub.exchange.resetDue = true ∧ s.mu.pub.exchange.hold = false) ∧
       s.mu.pub.ringRestartDue = true) ∧
    (let s := { moving with mu.pub.exchange.indicatorDue := true }
     motionFree s ∧ s.mu.pub.exchange.resetDue = false ∧ s.mu.pub.ringRestartDue = false ∧
       s.mu.pub.exchange.indicatorDue = true) ∧
    (let s := { moving with mu.pub.pending := some (pose 1) }
     motionFree s ∧ s.mu.pub.exchange.resetDue = false ∧ s.mu.pub.ringRestartDue = false ∧
       s.mu.pub.exchange.indicatorDue = false ∧ s.mu.pub.pending = some (pose 1)) ∧
    (motionFree moving ∧ moving.mu.pub.exchange.resetDue = false ∧ moving.mu.pub.ringRestartDue = false ∧
      moving.mu.pub.exchange.indicatorDue = false ∧ moving.mu.pub.pending = none ∧
      moving.mu.pub.list = [pose 1, pose 2] ∧ moving.mu.pub.headWritten = false) ∧
    (let s := { moving with
        mu.pub.pending := some (pose 1), mu.pub.exchange.resetDue := true, mu.pub.exchange.hold := true,
        mu.pub.headWritten := true }
     motionFree s ∧ s.mu.pub.exchange.hold = true ∧ s.mu.pub.exchange.resetDue = true ∧ s.mu.pub.headWritten = true) := by
  decide

theorem witness_MotionWritten :
    (let s := State.at moving (.ringControl (pose 1)) 0x16C (.write [])
     s.port = some ⟨.ringControl (pose 1), 0x16C, .write [], true⟩ ∧ s.port.map Access.stop = some 0x16C ∧
       s.hku.layout = some layout) ∧
    (let s := State.at moving (.exchangeRecord (pose 1) .ex1) 0x1E0 (.write [])
     s.port = some ⟨.exchangeRecord (pose 1) .ex1, 0x1E0, .write [], true⟩ ∧ s.mu.pub.exchange.hold = false) ∧
    (let s := State.at (held false) (.exchangeRecord (pose 1) .ex1) 0x1E0 (.write [])
     s.port = some ⟨.exchangeRecord (pose 1) .ex1, 0x1E0, .write [], true⟩ ∧ s.mu.pub.exchange.hold = true) ∧
    (State.at moving .ringRecord 0x05000000 (.write [])).port = some ⟨.ringRecord, 0x05000000, .write [], true⟩ ∧
    (State.at moving .indicator 0x154 (.write [])).port = some ⟨.indicator, 0x154, .write [], true⟩ ∧
    (State.at laid .ringRecord 0x05000000 (.write []) false).port = some ⟨.ringRecord, 0x05000000, .write [], false⟩ := by
  decide

theorem witness_BoundaryChooses :
    let s := display .showing [1, 2] .showing .queued .queued .free
    s.still ∧ s.SlotsOk ∧ s.fcu.display = .showing ∧ s.fcu.boundary = some 100 ∧ s.fcu.stopPending = false ∧
      s.fcu.queue = [1] ++ [2] :=
  ⟨by decide, ⟨by decide, by decide, by decide, by decide⟩, by decide⟩

theorem witness_BoundaryChooses_blank :
    let s := { (display .blank [3] .free .waiting .free .queued) with fcu.contentLost := true }
    s.still ∧ s.SlotsOk ∧ s.fcu.display = .blank ∧ s.fcu.queue = [] ++ [3] ∧ s.fcu.contentLost = true :=
  ⟨by decide, ⟨by decide, by decide, by decide, by decide⟩, by decide⟩

/-- A display at the end of its ramp, with two slots QUEUED. -/
theorem witness_BoundaryChooses_ramp :
    let s := display .powering [2, 1] .free .queued .queued .waiting
    s.still ∧ s.SlotsOk ∧ s.fcu.display = .powering ∧ s.fcu.ramp = some 100 ∧ s.fcu.stopPending = false ∧
      s.fcu.queue = [2] ++ [1] :=
  ⟨by decide, ⟨by decide, by decide, by decide, by decide⟩, by decide⟩

/-- The ramp's end with a slot QUEUED: its console half is to be read, the panels at the fill colour until then. -/
theorem test_ramp_shows :
    let s := { (display .powering [2] .free .free .queued .free) with
      fcu.fill := ⟨1, 2, 3⟩, ssu.left.frame := some ⟨[⟨9, 9, 9⟩], 0, ⟨0, 0, 0⟩⟩ }
    ∃ u, exec (.rampTimerExpiry 100) s = .next u ∧ u.fcu.display = .showing ∧ u.ssu.output = .fill ∧
      u.port = some ⟨.consoleHalf 2, 0x02800200, .read 32, true⟩ ∧
      u.ssu.left = ⟨some ⟨[], 0, ⟨1, 2, 3⟩⟩, some ⟨[⟨9, 9, 9⟩], 2303999, ⟨1, 2, 3⟩⟩⟩ := ⟨_, rfl, by decide⟩

/-- A display that shows slot 0, with its console half read. -/
def shown (times : Nat) : State :=
  let s := display .showing [] .showing .free .free .free
  { s with fcu := s.fcu.update 0 fun x => { x with shown := times, half := some ⟨9, 2, false⟩ } }

theorem witness_BoundaryRepeats :
    (shown 1).still ∧ (shown 1).SlotsOk ∧ (shown 1).fcu.display = .showing ∧ (shown 1).fcu.boundary = some 100 ∧
    (shown 1).fcu.stopPending = false ∧ (shown 1).fcu.queue = [] ∧ (shown 1).fcu.slots[(0 : Fin 4)].state = .showing ∧
    (shown 1).fcu.slots[(0 : Fin 4)].half = some ⟨9, 2, false⟩ ∧
    (shown 1).fcu.slots[(0 : Fin 4)].shown ≤ (shown 1).fcu.repeatLimit :=
  ⟨by decide, ⟨by decide, by decide, by decide, by decide⟩, by decide⟩

theorem witness_BoundaryBlanks_blank :
    let s := display .blank [] .free .free .waiting .free
    s.still ∧ s.SlotsOk ∧ s.fcu.stopPending = false ∧ s.fcu.queue = [] ∧ s.fcu.display = .blank ∧ s.fcu.boundary = some 100 :=
  ⟨by decide, ⟨by decide, by decide, by decide, by decide⟩, by decide⟩

theorem witness_BoundaryBlanks_ramp :
    let s := display .powering [] .free .free .waiting .free
    s.still ∧ s.SlotsOk ∧ s.fcu.stopPending = false ∧ s.fcu.queue = [] ∧ s.fcu.display = .powering ∧ s.fcu.ramp = some 100 :=
  ⟨by decide, ⟨by decide, by decide, by decide, by decide⟩, by decide⟩

theorem witness_BoundaryBlanks_lost :
    (shown 2).still ∧ (shown 2).SlotsOk ∧ (shown 2).fcu.stopPending = false ∧ (shown 2).fcu.queue = [] ∧
    (shown 2).fcu.slots[(0 : Fin 4)].state = .showing ∧ (shown 2).fcu.repeatLimit < (shown 2).fcu.slots[(0 : Fin 4)].shown :=
  ⟨by decide, ⟨by decide, by decide, by decide, by decide⟩, by decide⟩

theorem witness_BoundaryStops :
    let s := { (display .showing [1] .showing .queued .waiting .free) with fcu.stopPending := true }
    s.still ∧ s.fcu.display = .showing ∧ s.fcu.boundary = some 100 ∧ s.fcu.stopPending = true ∧
      ∀ x, x ∈ [SlotState.free, .showing, .queued, .waiting] → ∃ k : Fin 4, s.fcu.slots[k].state = x := by decide

theorem witness_ShiftComputed :
    laid.mu.motion = .off ∧ moving.mu.motion = .running ∧ { moving with mu.motion := .stalled }.mu.motion = .stalled ∧
    (⟨1, 0, false⟩ : ConsoleHalf).poseSequence = 0 ∧ (⟨1, 2, true⟩ : ConsoleHalf).noShift = true ∧
    (∀ r ∈ moving.mu.pub.history, r.sequence ≠ 2) ∧ laid.mu.motion = .off ∧
    (let s := { moving with mu.pub.history := [pose 1, pose 2] }
     s.mu.pub.history.find? (fun r => r.sequence == 2) = some (pose 2) ∧ s.mu.predict 100 = ⟨.running, some ⟨0, 0, 0⟩⟩) := by decide

theorem witness_SlotShown :
    (State.at laid (.consoleHalf 2) 0x02800200 (.read 32)).port = some ⟨.consoleHalf 2, 0x02800200, .read 32, true⟩ ∧
    (⟨.consoleHalf 2, 0x02800200, .read 32, true⟩ : Access).stop ≤ Config.dramSize ∧
    (State.at laid (.consoleHalf 2) 0x02800200 (.read 32) false).port =
      some ⟨.consoleHalf 2, 0x02800200, .read 32, false⟩ := by decide

/-- A scan-out of slot 2 at the given row, eye and byte. -/
def scanning (row : Nat) (eye : Eye) (done : Nat) : State :=
  { (State.at laid (.pixels eye) 0x0283C27C (.read 128)) with
    ssu.scan := some { Scan.start defaultSettings 0x02800200 2 ⟨0, 0, 0⟩ with row := row, eye := eye, done := done }
    ssu.left.frame := some ⟨[], 0, ⟨0, 0, 0⟩⟩, ssu.rowsDue := row + 1, ssu.lit := 2000 }

theorem witness_ScanOutRuns :
    (let s := scanning 0 .left 0
     s.still ∧ s.ssu.scan ≠ none ∧ s.ssu.rowsDue < 1600 ∧ s.ssu.rowsDue * 11111 / 1600 = 6) ∧
    ({ laid with ssu.chosen := some 0 }.ssu.chosen = some 0 ∧ laid.hku.layout = some layout) ∧
    ((scanning 0 .left 0).ssu.chosen = none ∧ laid.ssu.chosen = none ∧ laid.ssu.scan = none) ∧
    ((scanning 0 .left 0).port = some ⟨.pixels .left, 0x0283C27C, .read 128, true⟩ ∧ 0x0283C27C + 128 ≤ Config.dramSize) ∧
    (scanning 1599 .right 5632).port = some ⟨.pixels .right, 0x0283C27C, .read 128, true⟩ ∧
    (State.at laid (.pixels .left) 0x0283C27C (.read 128) false).port =
      some ⟨.pixels .left, 0x0283C27C, .read 128, false⟩ ∧
    ((scanning 0 .left 0).still ∧ 0 < (scanning 0 .left 0).ssu.lit ∧ (scanning 0 .left 0).ssu.litInterval = false) ∧
    (let s := { laid with ssu.litInterval := true }
     s.still ∧ s.ssu.litInterval = true) := by decide

theorem witness_JobsTaken :
    (record 0x50 [0x10000000, 0x11000000, 300, 2, 512, 512]).code = 0x0050 ∧
    (record 0x51 [0x11000000, 300, 2, 512, 5]).code = 0x0051 ∧
    (copyJob (record 0x50 [0x10000000, 0x11000000, 300, 2, 512, 512])).paramsOk = true ∧
    (copyJob (record 0x50 [0x10000000, 0x11000000, 302, 2, 512, 512])).paramsOk = false ∧
    (fillJob (record 0x51 [0x11000000, 300, 2, 512, 5])).paramsOk = true ∧
    (let s := { (State.takes laid 0x50 [0x10000000, 0x11000000, 300, 2, 512, 512]).behind with ce.jobs := List.replicate 4 job }
     s.still ∧ 4 ≤ s.ce.jobs.length) ∧
    (∀ q ∈ [[0x10000000, 0x11000000, 300, 2, 512, 512], [0x10000000, 0x11000000, 302, 2, 512, 512],
      [0x10000000, 0x05000000, 300, 2, 512, 512], [0x10000000, 0x01480200, 300, 2, 512, 512]],
      (State.takes laid 0x50 q).still ∧ (State.takes ready 0x50 q).still) ∧
    (State.takes laid 0x51 [0x11000000, 300, 2, 512, 5]).still ∧ laid.ce.jobs.length < 4 ∧
    laid.destProtected { job with dest := 0x05000000 } = true ∧ laid.destProtected job = false ∧
    (let s := { laid with fcu := laid.fcu.update 1 fun x => { x with state := .queued } }
     s.still ∧ s.destProtected { job with dest := 0x01480200 } = false ∧ s.destSlots { job with dest := 0x01480200 } = [1] ∧
       s.fcu.slots[(1 : Fin 4)].state ≠ .free) ∧
    ready.hku.layout = none ∧ laid.destSlots { job with dest := 0x01480000, destStride := 65536 } = [0, 1] ∧
    (laid.destSlots { job with dest := 0x01480200 } = [1] ∧ laid.fcu.slots[(1 : Fin 4)].state = .free) := by decide

theorem witness_ProtectedDestination :
    (0x1000 ≤ layout.frameArea.base ∧ 0 < layout.frameArea.size ∧ ready.hku.layout = none ∧ laid.hku.layout = some layout) ∧
    laid.covered 0x140 256 = [(.commandProducer, 0x140), (.noticeConsumer, 0x14C), (.poseHold, 0x150),
      (.playbackProducer, 0x158), (.captureConsumer, 0x164), (.cueRequest, 0x168)] ∧
    laid.covered 0x0010001C 4 = [(.submit 0, 0x0010001C)] ∧
    (∀ k : Fin 4, laid.fcu.slots[k].state = .free) ∧ laid.destProtected { job with dest := 0x00100020 } = true ∧
      laid.partOwned 0x00100020 = true ∧ laid.destProtected { job with dest := 0x00100040 } = false ∧
    (let s := { laid with fcu := laid.fcu.update 0 fun x => { x with state := .queued } }
     s.hku.layout = some layout ∧ s.fcu.slots[(0 : Fin 4)].state ≠ .free ∧
       s.partOwned 0x00100040 = true ∧ s.destProtected { job with dest := 0x00100040 } = false) := by decide

theorem witness_JobAborted :
    (∀ tag ∈ [7, 8, 9], (State.takes copying 0x52 [tag]).behind.still) ∧
    (let s := { (State.takes copying 0x52 [7]) with ce.paused := true }
     s.still ∧ s.port = none) ∧
    (State.takes copying 0x52 [8]).hku.work = .taking (record 0x52 [8]) ∧ (record 0x52 [8]).code = 0x0052 ∧
    (∀ j ∈ copying.ce.jobs, j.tag ≠ 9 ∨ j.aborting = true) ∧
    (copying.ce.jobs = [job] ++ { job with tag := 8 } :: [] ∧ (∀ x ∈ [job], x.tag ≠ 8 ∨ x.aborting = true) ∧ [job] ≠ []) ∧
    (copying.ce.jobs = [] ++ job :: [{ job with tag := 8 }] ∧ job.tag = 7 ∧ job.aborting = false) ∧
    (let s := State.at (State.takes copying 0x52 [7]) .copyRead 0x10000000 (.read 256)
     s.still ∧ s.port = some ⟨.copyRead, 0x10000000, .read 256, true⟩) ∧ Fcu.initial.slots[(0 : Fin 4)].state ≠ .waiting ∧
    (Fcu.initial.update 0 fun x => { x with state := .waiting, copyPending := 1 }).slots[(0 : Fin 4)].copyPending - 1 = 0 := by
  decide

theorem witness_JobRuns :
    (copying.ce.jobs = job :: [{ job with tag := 8 }] ∧ copying.copyMayGo = true ∧ copying.ce.paused = false ∧
      copying.ce.progress.held = none) ∧
    { copying with ce.progress.held := some [1, 2, 3, 4] }.copyMayGo = true ∧ (laid.copyMayGo = true ∧ laid.ce.jobs = []) ∧
    (State.at laid .copyRead 0x10000000 (.read 256) false).port = some ⟨.copyRead, 0x10000000, .read 256, false⟩ ∧
    (State.at laid .copyWrite 0x11000000 (.write []) false).port = some ⟨.copyWrite, 0x11000000, .write [], false⟩ ∧
    ({ copying with ce.paused := true }.copyMayGo = true ∧ { copying with ce.paused := true }.ce.paused = true) ∧
    { copying with ce.jobs := [{ job with kind := .fill }] }.copyMayGo = true ∧
    ((State.at copying .copyRead 0x10000000 (.read 256)).port = some ⟨.copyRead, 0x10000000, .read 256, true⟩ ∧
      0x10000000 + 256 ≤ Config.dramSize ∧ job.aborting = false ∧ { job with aborting := true }.aborting = true) ∧
    (let s := State.at copying .copyWrite 0x11000000 (.write (List.replicate 44 (some 0)))
     s.port.map (fun a => a.transfer.length) = some 44 ∧ ¬ (256 + 44 < job.rowBytes) ∧ 0 + 1 < job.rows ∧ 1 + 1 = job.rows ∧
       0 + 44 < job.rowBytes) := by decide

theorem witness_AudioCommands :
    (record 0x40 [64, 32768]).code = 0x0040 ∧ fieldAt (record 0x40 [64, 32768]).bytes 4 4 = 64 ∧
    fieldAt (record 0x40 [64, 32768]).bytes 8 4 = 32768 ∧ fieldAt (record 0x40 [65, 0]).bytes 4 4 = 65 ∧
    (∀ c ∈ [0x40, 0x41, 0x42, 0x43, 0x44], (State.takes laid c [64, 32768]).still ∧ (State.takes ready c [64, 32768]).still ∧
      { (State.takes laid c []) with au.playback := .priming, au.capturing := true }.still) ∧
    (State.takes laid 0x40 [65, 0]).still ∧ (State.takes laid 0x42 [32769]).still ∧
    ready.hku.layout = none ∧ laid.hku.layout = some layout ∧ laid.au.playback = .stopped ∧
    { laid with au.playback := .priming }.au.playback ≠ .stopped ∧ (record 0x41 []).code = 0x0041 ∧
    (record 0x42 [32768]).code = 0x0042 ∧ fieldAt (record 0x42 [32769]).bytes 4 4 = 32769 ∧ (record 0x43 []).code = 0x0043 ∧
    (record 0x44 []).code = 0x0044 ∧ laid.au.capturing = false ∧ { laid with au.capturing := true }.au.capturing = true := by
  decide

/-- Audio at a block boundary due at time 5,000. -/
def boundary (x : PlaybackState) (producer : Word) (capturing : Bool) : State :=
  { laid with
    au.nextBoundary := some 5000, au.playback := x, au.producer := producer, au.capturing := capturing
    au.gathering := if capturing then some ⟨4000, List.replicate 48 ⟨1, 2⟩⟩ else none }

theorem witness_BlockBoundarySettles :
    (∀ u : Au, u.waiting = [] → { laid with au := u }.still ∧ { ready with au := u }.still) ∧
    (let s := boundary .playing 60000 true
     s.au.nextBoundary = some 5000 ∧ s.hku.layout = some layout ∧ (∀ g ∈ s.au.gathering, g.frames.length = 48) ∧
       layout.playback.size < (s.au.producer - s.au.consumer).toNat ∧
       (s.au.captureProducer - s.au.captureConsumer).toNat < layout.capture.size) ∧
    (let s := boundary .priming 48 false
     s.au.threshold * 48 ≤ (s.au.producer - s.au.consumer).toNat ∧ s.au.playbackStop = false) ∧
    (boundary .priming 47 false).au.threshold * 48 > 47 ∧ (boundary .playing 47 false).au.playback = .playing ∧
    (let s := { (boundary .playing 47 false) with au.playbackStop := true }
     s.au.playbackStop = true) ∧
    (boundary .stopped 47 false).au.playback = .stopped ∧
    (let s := { (boundary .stopped 0 false) with au.cue := some ⟨1, .duck, 0x1000, 100, false, 96⟩ }
     s.au.cue.all fun c => c.played < c.length) ∧
    (let s := { (boundary .stopped 0 false) with
        au.cue := some ⟨1, .duck, 0x1000, 100, false, 100⟩, au.pendingCue := some (2, .mix) }
     (s.au.cue.all fun c => c.length ≤ c.played) ∧ s.au.startingCue = none ∧ s.au.pendingCue = some (2, .mix)) ∧
    (let s := { (boundary .stopped 0 true) with au.captureStop := true }
     s.au.captureStop = true) ∧
    (let s := { (boundary .stopped 0 true) with au.captureProducer := 256 }
     ¬ (s.au.captureProducer - s.au.captureConsumer).toNat < layout.capture.size) ∧
    (let s := { ready with au.nextBoundary := some 5000, au.pendingCue := some (2, .mix) }
     s.still ∧ s.au.nextBoundary = some 5000 ∧ s.hku.layout = none ∧ s.au.gathering = none ∧ s.au.playback = .stopped) ∧
    (let s := { (boundary .stopped 0 false) with au.startingCue := some (1, .mix) }
     s.au.startingCue ≠ none) ∧
    1024 ≤ layout.playback.size ∧ (Gathering.mk 4000 (List.replicate 48 ⟨1, 2⟩)).frames.length = 48 :=
  ⟨fun u h => by cases u; subst h; exact ⟨rfl, rfl⟩, by decide⟩

/-- A boundary with no layout starts a cue and plays nothing. -/
theorem test_boundary_without_layout :
    ∃ u, exec (.blockBoundary 5000) { ready with au.nextBoundary := some 5000, au.pendingCue := some (2, .mix) } = .next u ∧
      u.au.waiting = [⟨.cueEntry 2 .mix, false, false⟩] ∧ u.au.playback = .stopped ∧ u.hku.writeList = [] :=
  ⟨_, rfl, by decide⟩

/-- A playback block across the ring's end is read in two runs (R144). -/
theorem test_play_runs : playRuns 0x05010000 48000 3 47990 48 =
    [.playRead (0x05010000 + 4 * 47990) 10, .playRead 0x05010000 38] := by decide

/-- An audio access at the port. -/
def hearing (work : AudioWork) (addr : Nat) (transfer : Transfer) (late : Bool := false) : State :=
  State.at laid (.audio ⟨work, late, false⟩) addr transfer

/-- A cue table entry. -/
def cueEntry (addr frames : Nat) (mono : Bool) : Memory :=
  (leBytes 4 addr ++ leBytes 4 frames ++ leBytes 4 (if mono then 1 else 0) ++ leBytes 4 0).mapIdx fun n b => (0x190 + n, b)

theorem witness_AudioClientServed :
    (∀ w, w ∈ [AudioWork.cueEntry 3 .duck, .cueData 0x1000 5 true, .playRead 0x05010000 48, .playConsumer,
        .captureRecord 0x05040000 [1] 2 0 256, .captureProducer] →
      (let s := { laid with au.waiting := [⟨w, false, false⟩] }
       s.port = none ∧ s.scanWaiting = none ∧ s.au.waiting = [⟨w, false, false⟩])) ∧
    (let s := hearing (.playRead 0x05010000 48) 0x05010000 (.read 192)
     s.port = some ⟨.audio ⟨.playRead 0x05010000 48, false, false⟩, 0x05010000, .read 192, true⟩ ∧
       s.port.map Access.stop = some 0x050100C0) ∧
    (hearing (.cueData 0x1000 5 true) 0x1000 (.read 12) true).port =
      some ⟨.audio ⟨.cueData 0x1000 5 true, true, false⟩, 0x1000, .read 12, true⟩ ∧
    (hearing .playConsumer 0x15C (.write [])).port = some ⟨.audio ⟨.playConsumer, false, false⟩, 0x15C, .write [], true⟩ ∧
    (hearing (.captureRecord 0x05040000 [] 2 255 256) 0x05040000 (.write [])).port =
      some ⟨.audio ⟨.captureRecord 0x05040000 [] 2 255 256, false, false⟩, 0x05040000, .write [], true⟩ := by decide

theorem witness_AudioClientServed_cue :
    (State.at laid (.audio ⟨.cueEntry 1 .mix, false, false⟩) 0x190 (.read 16) false).port =
      some ⟨.audio ⟨.cueEntry 1 .mix, false, false⟩, 0x190, .read 16, false⟩ ∧
    (hearing (.cueEntry 1 .mix) 0x190 (.read 16)).port =
      some ⟨.audio ⟨.cueEntry 1 .mix, false, false⟩, 0x190, .read 16, true⟩ ∧
    cueOf 1 .mix ((cueEntry 0x1000 0 false).readBytes 0x190 16) = .inl .length ∧
    cueOf 1 .mix ((cueEntry 0x1000 480001 false).readBytes 0x190 16) = .inl .length ∧
    cueOf 1 .mix ((cueEntry 0x1002 480000 false).readBytes 0x190 16) = .inl .align ∧
    cueOf 1 .mix ((cueEntry 0x1FFFFFFC 2 false).readBytes 0x190 16) = .inl .range ∧
    cueOf 1 .mix ((cueEntry 0x1FFFFFFC 2 true).readBytes 0x190 16) = .inr ⟨1, .mix, 0x1FFFFFFC, 2, true, 0⟩ := by decide

theorem witness_CodecFrameSent :
    State.reset.still ∧ laid.still ∧ State.reset.hku.part = .booting ∧ laid.hku.part = .ready ∧ laid.au.block.sent < 48 := by
  decide

theorem witness_PowerCommands :
    (∀ v ∈ [499, 500, 20001], (State.takes laid 0x60 [v]).still) ∧ (∀ v ∈ [1, 7, 8], (State.takes laid 0x61 [v]).still) ∧
    (State.takes laid 0x70 [3]).still ∧
    (State.takes laid 0x60 [499]).hku.work = .taking (record 0x60 [499]) ∧ (record 0x60 [20001]).code = 0x0060 ∧
    (record 0x61 [8]).code = 0x0061 ∧ 8 ≤ fieldAt (record 0x61 [8]).bytes 4 4 ∧
    ((7 : Fin 8).val = fieldAt (record 0x61 [7]).bytes 4 4 ∧ laid.pu.level ≤ 7) ∧
    ((1 : Fin 8).val = fieldAt (record 0x61 [1]).bytes 4 4 ∧ 1 < laid.pu.level) ∧ (record 0x70 [3]).code = 0x0070 := by decide

/-- Power at a sample due at time 1,000, at the end of a window or before it. -/
def sampling (level : Fin 8) (accumulator overs unders hold count : Nat) : State :=
  { laid with
    pu := ⟨level, 7, 4500, none, accumulator, count, 0, overs, unders, hold, false, some 1000⟩
    ce.paused := decide (level.val < 2) }

/-- The six ends of a window, each with a sample of 5,000 mV and 1,000 mA, and a sample that ends none. -/
theorem witness_PowerSampled :
    (∀ s ∈ [sampling 7 0 0 0 0 15, sampling 7 75000 1 0 0 15, sampling 0 75000 1 0 0 15, sampling 7 75000 0 3 0 15,
      sampling 3 50000 0 7 1 15, sampling 3 50000 0 6 0 15, sampling 3 0 0 0 0 14], s.still ∧ s.pu.nextSample = some 1000) ∧
    ¬ min 5000 24000 < laid.hku.settings.undervoltage ∧
    min 4399 24000 < laid.hku.settings.undervoltage ∧ 5000 * 1000 / 1000 = 5000 ∧
    ((75000 + 5000) / 16 = 5000 ∧ 4500 < 5000 ∧ (sampling 7 75000 1 0 0 15).pu.overCount + 1 = 2) ∧
    (sampling 0 75000 1 0 0 15).pu.level = 0 ∧ (sampling 7 75000 0 3 0 15).pu.overCount + 1 < 2 ∧
    ((61000 + 5000) / 16 ≤ 4500 ∧ 4500 - 4500 / 8 < (61000 + 5000) / 16) ∧
    ((50000 + 5000) / 16 ≤ 4500 - 4500 / 8 ∧ (sampling 3 50000 0 7 1 15).pu.underCount + 1 = 8 ∧
      (sampling 3 50000 0 7 1 15).pu.level < (sampling 3 50000 0 7 1 15).pu.ceiling ∧ (1 : Nat) - 1 = 0) ∧
    (sampling 3 50000 0 6 0 15).pu.underCount + 1 < 8 ∧ (sampling 3 0 0 0 0 14).pu.sampleCount + 1 ≠ 16 ∧
    (sampling 3 0 0 0 0 15).pu.sampleCount + 1 = 16 := by decide

/-- A ceiling of 0 whose record has been read, with the grant of a copy access due at the same moment. -/
def ceiling : State := State.takes copying 0x61 [0]

theorem witness_commands_fall_together :
    ceiling.hku.work = .taking (record 0x61 [0]) ∧ (0 : Time) = ceiling.now ∧
    ceiling.granted.port.map Access.kind = some .copyRead := by decide

/-- The change of level is taken first: its flag keeps the copy access from being made (R131). -/
theorem test_level_before_grant :
    ∃ u, exec (.powerCeiling 0) ceiling = .next u ∧ u.ce.paused = true ∧ u.port = none ∧ u.copyMayGo = false ∧
      u.granted.port.map Access.kind ≠ some .copyRead := ⟨_, rfl, by decide⟩

/-- The grant is taken first: the access is made, and the flag is set behind it (R131). -/
theorem test_level_after_grant :
    ∃ u, exec (.powerCeiling 1) ceiling = .next u ∧ u.ce.paused = true ∧ u.port.map Access.kind = some .copyRead :=
  ⟨_, rfl, by decide⟩

theorem witness_PowerSampled_invariant : (sampling 1 0 0 0 0 15).PowerOk :=
  ⟨by decide, by decide, by decide, by decide, by decide, by decide⟩

/-- The premises of HOUSEKEEPING_GRANT. -/
def housekeepingFree (s : State) : Bool :=
  s.port.isNone && s.scanWaiting.isNone && s.au.waiting.isEmpty && !s.inboundWaiting && s.mu.pub.due.isNone

/-- No housekeeping item before the status block is due. -/
def quiet (s : State) : Bool :=
  (match s.hku.work with | .restarting (_ :: _) => false | _ => true) && s.hku.writeList.isEmpty &&
    s.hku.noticeWritten == s.hku.noticeShown && allSlots.all fun k => !s.fcu.slots[k].headerDue

theorem witness_HousekeepingGranted :
    (let s := { laid with hku.work := .restarting [.words] }
     housekeepingFree s ∧ s.hku.work = .restarting (.words :: [])) ∧
    (let s := { laid with hku.writeList := [⟨63, 9, .cueReplaced 1 .mix⟩] }
     housekeepingFree s ∧ s.hku.work = .idle ∧ s.hku.writeList = [⟨63, 9, .cueReplaced 1 .mix⟩]) ∧
    (let s := { laid with hku.noticeWritten := 1 }
     housekeepingFree s ∧ s.hku.writeList = [] ∧ s.hku.noticeWritten ≠ s.hku.noticeShown) ∧
    (let s := { laid with fcu := laid.fcu.update 3 fun x => { x with headerDue := true } }
     housekeepingFree s ∧ s.hku.writeList = [] ∧ s.hku.noticeWritten = s.hku.noticeShown ∧
       s.fcu.slots[(3 : Fin 4)].headerDue = true ∧ ∀ j : Fin 4, j < 3 → s.fcu.slots[j].headerDue = false) ∧
    (let s := { laid with hku.statusRest := some [1] }
     housekeepingFree s ∧ quiet s ∧ s.hku.statusRest = some [1]) ∧
    (let s := { laid with hku.statusDue := true }
     housekeepingFree s ∧ quiet s ∧ s.hku.statusRest = none ∧ s.hku.statusDue = true) ∧
    (let s := { laid with hku.consumerDue := true }
     housekeepingFree s ∧ quiet s ∧ s.hku.statusDue = false ∧ s.hku.consumerDue = true) ∧
    (let s := { laid with hku.work := .tableDue (record 0x10 []) }
     housekeepingFree s ∧ quiet s ∧ s.hku.consumerDue = false ∧ s.hku.work = .tableDue (record 0x10 [])) ∧
    (let s := { laid with hku.latest := 1 }
     housekeepingFree s ∧ quiet s ∧ s.hku.consumerDue = false ∧ s.hku.work = .idle ∧ s.hku.consumer ≠ s.hku.latest) := by
  decide

/-- The first status block write shows the count before it, in both copies. -/
theorem test_status_count :
    ∃ u, exec (.housekeepingGrant 9) { laid with hku.statusDue := true } = .next u ∧ u.hku.statusCount = 1 ∧
      u.port.map Access.addr = some 0x200 := ⟨_, rfl, rfl, rfl⟩

theorem test_status_count_words :
    fieldAt { laid with now := 9 }.statusFirst 0 4 = 0 ∧
      fieldAt { laid with now := 9, hku.statusCount := 7 }.statusFirst 0 4 = 7 := by decide

theorem witness_HousekeepingGranted_slots :
    (∀ k : Fin 4, laid.fcu.slots[k].state ≠ .showing) ∧ laid.ce.jobs = [] ∧ copying.ce.jobs = job :: [{ job with tag := 8 }] ∧
    ((shown 1).fcu.slots[(0 : Fin 4)].state = .showing ∧
      ∀ j : Fin 4, (shown 1).fcu.slots[j].state = .showing → j = 0) := by decide

theorem witness_HousekeepingWritten :
    (let s := { laid with hku.statusTimer := some 7 }
     s.still ∧ s.hku.statusTimer = some 7) ∧
    (let s := { (State.at laid .noticeEntry 0xBF0 (.write [])) with hku.writeList := [⟨63, 9, .cueReplaced 1 .mix⟩] }
     s.port = some ⟨.noticeEntry, 0xBF0, .write [], true⟩ ∧ s.hku.writeList = [⟨63, 9, .cueReplaced 1 .mix⟩]) ∧
    (State.at laid (.noticeProducer 2) 0x148 (.write [])).port = some ⟨.noticeProducer 2, 0x148, .write [], true⟩ ∧
    (State.at laid (.noticeProducer 2) 0x148 (.write []) false).port = some ⟨.noticeProducer 2, 0x148, .write [], false⟩ ∧
    (State.at laid .noticeEntry 0xBF0 (.write []) false).port = some ⟨.noticeEntry, 0xBF0, .write [], false⟩ ∧
    (State.at laid .statusSecond 0x300 (.write [])).port = some ⟨.statusSecond, 0x300, .write [], true⟩ ∧
    (State.at laid .commandConsumer 0x144 (.write [])).port = some ⟨.commandConsumer, 0x144, .write [], true⟩ ∧
    (linked.tiu.link = .up ∧ linked.tiu.order.countP Upstream.isAttention < 8) ∧ laid.tiu.link = .down ∧
    8 ≤ (List.replicate 8 (Upstream.attention 0 1)).countP Upstream.isAttention := by decide

/-! ### States that satisfy the invariants, and step -/

/-- A write of one byte that lands when it completes. -/
def landingWrite : State :=
  { (State.at linked (.inboundWrite []) 0x100 (.write [some 9])) with
    mem := [(0xFF, 1), (0x100, 2)], tiu.service := .atPort, pending := [.inboundWriteDone 4] }

theorem witness_MemoryChangesByAccess :
    (∃ s', exec (.inboundWriteDone 4) landingWrite = .next s') ∧ landingWrite.port ≠ none := ⟨⟨_, rfl⟩, by decide⟩

theorem witness_MemoryCanonicalKept :
    landingWrite.mem.wf = true ∧ ∃ s', step landingWrite = .next s' ∧ s'.mem = [(0xFF, 1), (0x100, 9)] :=
  ⟨by decide, _, rfl, by decide⟩

theorem witness_CapacitiesKept :
    let s := { (requests 63) with pending := [.write 3 0x100 4 [1, 2, 3, 4]] }
    s.CapacitiesOk ∧ ∃ s', step s = .next s' ∧ s'.tiu.queue.length = 64 :=
  ⟨⟨by decide, by decide, by decide, by decide, by decide, by decide, by decide⟩, _, rfl, by decide⟩

theorem witness_PowerKept :
    let s := { (sampling 2 75000 1 0 0 15) with pending := [.powerSample 1000 (some ⟨5000, 1000⟩)] }
    s.PowerOk ∧ ∃ s', step s = .next s' ∧ s'.pu.level = 1 ∧ s'.ce.paused = true :=
  ⟨⟨by decide, by decide, by decide, by decide, by decide, by decide⟩, _, rfl, by decide⟩

theorem witness_PresentQueueKept :
    let s := { (display .showing [1, 2] .showing .queued .queued .free) with pending := [.frameBoundary 100] }
    s.SlotsOk ∧ ∃ s', step s = .next s' ∧ s'.fcu.queue = [] ∧ s'.fcu.slots[(2 : Fin 4)].state = .showing :=
  ⟨⟨by decide, by decide, by decide, by decide⟩, _, rfl, by decide⟩

theorem witness_PresentQueueKept_marks :
    let s := { laid with
      fcu := laid.fcu.update 1 fun x => { x with state := .waiting, copyPending := 1 }
      ce.jobs := [{ job with marks := [1] }]
      port := some ⟨.copyRead, 0x10000000, .read 4, true⟩
      pending := [.copyReadDone 9] }
    let a := { s with ce.jobs := [{ job with marks := [1], aborting := true }] }
    s.MarksOk ∧ a.MarksOk ∧ ∃ u, step a = .next u ∧ u.ce.jobs = [] ∧ u.fcu.slots[(1 : Fin 4)].state = .queued :=
  ⟨⟨by decide, by decide, by decide, by decide, by decide⟩, ⟨by decide, by decide, by decide, by decide, by decide⟩,
    _, rfl, by decide⟩

theorem witness_PoseOrderKept :
    let s := { (reading true) with pending := [.sensorReadDone 2100 ⟨⟨0, 0, 0⟩, ⟨0, 0, 0⟩⟩] }
    s.PosesOk ∧ ∃ s', step s = .next s' ∧ s'.mu.pub.list.map PoseRecord.sequence = [1, 2, 3] :=
  ⟨⟨by unfold increasing; decide, fun q h => by (cases h; unfold above; decide), nofun, nofun, nofun, nofun, nofun,
    nofun⟩, _, rfl, by decide⟩

theorem witness_ReadTagsKept :
    let s := { linked with
      tiu := { linked.tiu.setTag 3 .outstanding with queue := [.read 0x100 4 3] }
      pending := [.requestTake 6] }
    s.TagsOk ∧ ∃ s', step s = .next s' ∧ s'.tiu.service = .atPort ∧ s'.tiu.tags[(3 : Fin 32)] = .outstanding :=
  ⟨⟨nofun, by decide⟩, _, rfl, by decide⟩

theorem witness_ReadTagsKept_flow :
    let s := { (requests 47) with pending := [.write 3 0x100 4 [1, 2, 3, 4]] }
    s.FlowOk ∧ ∃ u, step s = .next u ∧ u.tiu.queue.length = 48 ∧ u.tiu.flow = .held :=
  ⟨⟨by decide, by decide⟩, _, rfl, by decide⟩

/-- With the hold set the record goes into the back. -/
theorem witness_HeldFrontKept_grant :
    let s := { (held false) with mu.pub.pending := some (pose 1), tiu.service := .idle }
    (∀ l, s.hku.layout = some l → l = layout) ∧ s.port = none ∧ s.mu.pub.exchange.hold = true ∧
    ∃ u, exec (.motionGrant 4) s = .next u ∧ u.port.map Access.addr = some 0x1E0 :=
  ⟨fun _ h => (Option.some.inj h).symm, by decide, by decide, _, rfl, by decide⟩

/-- A step that is no grant row, with a grant due to the motion client under the hold. -/
theorem witness_HeldFrontKept_due :
    let s := { (held false) with mu.pub.pending := some (pose 1), tiu.service := .idle }
    s.LayoutOk ∧ s.port = none ∧ s.mu.pub.exchange.hold = true ∧
    ∃ u, exec (.dataReady 9) s = .next u ∧ u.mu.pub.exchange.hold = true ∧
      u.port.map (fun a => (a.kind.client, a.addr)) = some (.motion, 0x1E0) :=
  ⟨⟨fun l h => ⟨defaultSettings, by obtain rfl : layout = l := Option.some.inj h; decide⟩,
    fun l h => by obtain rfl : layout = l := Option.some.inj h; decide,
    fun l h => by obtain rfl : layout = l := Option.some.inj h; decide, nofun, nofun, nofun⟩, by decide, by decide, _, rfl,
    by decide⟩

theorem witness_LayoutOk : moving.LayoutOk := by
  refine ⟨?_, ?_, ?_, nofun, nofun, nofun⟩ <;> (intro l h; obtain rfl : layout = l := Option.some.inj h)
  · exact ⟨defaultSettings, by decide⟩
  all_goals decide

theorem witness_HeldFrontKept :
    let s := State.at (held false) (.exchangeRecord (pose 1) .ex1) 0x1E0 (.write [])
    ∃ s', exec (.exchangeRecordWriteDone 9) s = .next s' ∧ s.mu.pub.exchange.hold = true ∧ s'.mu.pub.exchange.hold = true ∧
      s'.mu.pub.exchange.missed = true := ⟨_, rfl, by decide⟩

theorem witness_OnlyOutsideDramStops :
    exec (.inboundReadDone 1) (State.at linked (.inboundRead 3) 0x1FFFFFFD (.read 4)) = .fault (.outsideDram 0x1FFFFFFD) :=
  rfl

theorem witness_AccumulationExact : (999999 : Nat) < 1000000 := by decide

theorem witness_PictureAndSoundBounds :
    defaultSettings.litOffset + 500 ≤ defaultSettings.framePeriod ∧ (0 : Nat) < 1 ∧ (32768 : Nat) ≤ 32768 ∧
      2 * |roundDiv 1 2 * 2 - 1| = 2 := by decide

end Sys2Proof.Tests
end

section
/-! SUPPORT. REQUEST_TAKE (R8, R9, R13, R20, R23): what the taking of a request does, from the classification of its bytes to the
access it presents. -/

namespace Sys2Proof.Machine

/-! ### Classification of a WRITE's bytes (R20) -/

/-- Each landing byte, by its place in the WRITE. -/
theorem State.landing_eq_mapIdx (s : State) (addr : Nat) (data : List Byte) :
    s.landing addr data = data.mapIdx fun i b => if s.partOwned (addr + i) then none else some b := by
  induction data generalizing addr with
  | nil => rfl
  | cons b rest ih =>
    rw [State.landing, ih, List.mapIdx_cons]
    simp only [Nat.add_zero, Nat.add_assoc, Nat.add_comm 1]

@[simp] theorem State.landing_length (s : State) (addr : Nat) (data : List Byte) :
    (s.landing addr data).length = data.length := by
  rw [State.landing_eq_mapIdx, List.length_mapIdx]

/-- What is part-owned depends on the HKU (its layout and settings) and the FCU (its slots) alone. -/
theorem State.partOwned_congr {s u : State} (hku : u.hku = s.hku) (fcu : u.fcu = s.fcu) (a : Nat) :
    u.partOwned a = s.partOwned a := by
  unfold State.partOwned
  rw [hku, fcu]

/-- Which bytes land depends on the HKU and the FCU alone, not on the queue. -/
theorem State.landing_congr {s u : State} (hku : u.hku = s.hku) (fcu : u.fcu = s.fcu) (addr : Nat) (data : List Byte) :
    u.landing addr data = s.landing addr data := by
  simp only [State.landing_eq_mapIdx, State.partOwned_congr hku fcu]

/-- Which watched words a WRITE covers depends on the HKU and the FCU alone, not on the queue. -/
theorem State.covered_congr {s u : State} (hku : u.hku = s.hku) (fcu : u.fcu = s.fcu) (addr len : Nat) :
    u.covered addr len = s.covered addr len := by
  simp only [State.covered, State.watchedWords, State.partOwned_congr hku fcu, hku]

/-! ### A WRITE taken (R9, R20, R23) -/

/-- A WRITE with every byte refused presents no access. -/
theorem State.takeWrite_refused (s : State) (addr : Word) (len : Nat) (data : List Byte)
    (h : (s.landing addr.toNat data).countP (·.isNone) = data.length) :
    s.takeWrite addr len data = s.noteRefused addr ((s.landing addr.toNat data).countP (·.isNone)) := by
  have all : (s.landing addr.toNat data).all (·.isNone) = true :=
    List.all_eq_true.mpr (List.countP_eq_length.mp (h.trans (s.landing_length _ _).symm))
  simp only [State.takeWrite, all, if_true]

/-- A WRITE with a landing byte presents its access. -/
theorem State.takeWrite_lands (s : State) (addr : Word) (len : Nat) (data : List Byte)
    (h : (s.landing addr.toNat data).countP (·.isNone) < data.length) :
    s.takeWrite addr len data = { s.noteRefused addr ((s.landing addr.toNat data).countP (·.isNone)) with
      tiu.service := .presented
        ⟨.inboundWrite (s.covered addr.toNat len), addr.toNat, .write (s.landing addr.toNat data), true⟩ } := by
  have some_lands : ¬ (s.landing addr.toNat data).all (·.isNone) = true := fun all =>
    Nat.ne_of_lt h ((List.countP_eq_length.mpr (List.all_eq_true.mp all)).trans (s.landing_length _ _))
  simp only [State.takeWrite, some_lands]
  rfl

/-! ### The head leaves the queue (R8, R13) -/

/-- RESUME joins the flow messages when the count is 16 while HELD; nothing else changes. -/
theorem Tiu.afterTake_eq (u : Tiu) :
    u.afterTake = { u with
      flow := if u.queue.length = 16 ∧ u.flow = .held then .running else u.flow
      flowOut := if u.queue.length = 16 ∧ u.flow = .held then u.flowOut ++ [FlowMessage.resume] else u.flowOut } := by
  unfold Tiu.afterTake Config.resumeCount
  split <;> rfl

/-- The state in which the head has left the queue, its request not yet acted on. -/
def State.headTaken (s : State) (t : Time) (rest : List Request) : State :=
  { s with now := t, tiu := { s.tiu with queue := rest }.afterTake }

theorem State.headTaken_eq (s : State) (t : Time) (rest : List Request) :
    s.headTaken t rest = { s with
      now := t
      tiu := { s.tiu with
        queue := rest
        flow := if rest.length = 16 ∧ s.tiu.flow = .held then .running else s.tiu.flow
        flowOut := if rest.length = 16 ∧ s.tiu.flow = .held then s.tiu.flowOut ++ [FlowMessage.resume] else s.tiu.flowOut } } := by
  rw [State.headTaken, Tiu.afterTake_eq]

/-! ### REQUEST_TAKE, by the request at the head -/

theorem exec_requestTake (t : Time) (s : State) : exec (.requestTake t) s = execRequestTake t s := rfl

section
variable (t : Time) {s : State} {rest : List Request} (still : s.granted = s) (idle : s.tiu.service = .idle)
include still idle

theorem exec_requestTake_read {addr : Word} {len : Nat} {tag : Fin 32} (queue : s.tiu.queue = .read addr len tag :: rest) :
    exec (.requestTake t) s = .next { s.headTaken t rest with
      tiu.service := .presented ⟨.inboundRead tag, addr.toNat, .read len, true⟩ }.settle := by
  simp only [exec_requestTake, execRequestTake, still, queue]
  exact State.fire_pos s t _ (decide_eq_true idle)

theorem exec_requestTake_write {addr : Word} {len : Nat} {data : List Byte} (queue : s.tiu.queue = .write addr len data :: rest) :
    exec (.requestTake t) s = .next ((s.headTaken t rest).takeWrite addr len data).settle := by
  simp only [exec_requestTake, execRequestTake, still, queue]
  exact State.fire_pos s t _ (decide_eq_true idle)

end

end Sys2Proof.Machine

open Sys2Proof Sys2Proof.Machine

/-- Settles O10: by the request at the head, a WRITE by whether a byte of it lands. -/
theorem requestTaken : Obligations.RequestTaken := by
  unfold Obligations.RequestTaken
  intro t s r rest still queue idle resumes taken
  have taken_eq : s.headTaken t rest = taken := s.headTaken_eq t rest
  refine ⟨?read, ?write⟩
  case read =>
    rintro addr len tag rfl
    rw [exec_requestTake_read t still idle queue, taken_eq]
  case write =>
    rintro addr len data rfl bytes refused noted
    have landing : taken.landing addr.toNat data = bytes :=
      (State.landing_congr (s := s) (u := taken) rfl rfl _ _).trans (s.landing_eq_mapIdx _ _)
    have covered : taken.covered addr.toNat len = s.covered addr.toNat len :=
      State.covered_congr rfl rfl _ _
    have counted : (taken.landing addr.toNat data).countP (·.isNone) = refused := by rw [landing]
    have noted_eq : taken.noteRefused addr refused = noted := rfl
    rw [exec_requestTake_write t still idle queue, taken_eq]
    refine ⟨fun none_lands => ?_, fun one_lands => ?_⟩
    · rw [taken.takeWrite_refused _ _ _ (counted.trans none_lands), counted, noted_eq]
    · rw [taken.takeWrite_lands _ _ _ (counted ▸ one_lands), counted, landing, covered, noted_eq]

end

section
/-! SUPPORT. A run of samples on one axis (R54): the increments it makes and the remainder it leaves. -/

namespace Sys2Proof.Machine

/-! ### One sample -/

theorem remainderAfter_lt (r : Int) (dt remainder : Nat) : remainderAfter r dt remainder < 1000000 := by
  have nonneg : 0 ≤ accumulation r dt remainder % 1000000 := Int.emod_nonneg _ (by decide)
  have bound : accumulation r dt remainder % 1000000 < 1000000 := Int.emod_lt_of_pos _ (by decide)
  exact (Int.toNat_lt nonneg).mpr bound

/-- Nothing is lost in one sample: increment and new remainder are quotient and remainder of the one exact sum N. -/
theorem increment_add_remainderAfter (r : Int) (dt remainder : Nat) :
    1000000 * increment r dt remainder + remainderAfter r dt remainder = r * 4096 * dt + remainder := by
  have nonneg : 0 ≤ accumulation r dt remainder % 1000000 := Int.emod_nonneg _ (by decide)
  have cast : (remainderAfter r dt remainder : Int) = accumulation r dt remainder % 1000000 := Int.toNat_of_nonneg nonneg
  rw [cast]
  exact Int.mul_ediv_add_emod _ _

@[simp] theorem moveAngle_zero (a : Word) : moveAngle a 0 = a := by
  simp [moveAngle]

/-- Moves modulo 2^32 add up. -/
theorem moveAngle_moveAngle (a : Word) (m n : Int) : moveAngle (moveAngle a m) n = moveAngle a (m + n) := by
  simp only [moveAngle, BitVec.ofInt_add, BitVec.add_assoc]

/-! ### A run of samples: pairs of rate and interval, the remainder passed on from each to the next -/

/-- The sum of the increments of a run. -/
def runIncrement : List (Int × Nat) → Nat → Int
  | [], _ => 0
  | (r, dt) :: rest, remainder => increment r dt remainder + runIncrement rest (remainderAfter r dt remainder)

/-- The remainder a run leaves. -/
def runRemainder : List (Int × Nat) → Nat → Nat
  | [], remainder => remainder
  | (r, dt) :: rest, remainder => runRemainder rest (remainderAfter r dt remainder)

/-- The model's accumulation, iterated, moves the angle by the sum of the increments. -/
theorem foldl_accumulate (samples : List (Int × Nat)) (angle : Word) (remainder : Nat) :
    samples.foldl (fun (x : Word × Nat) y => accumulate x.1 y.1 y.2 x.2) (angle, remainder) =
      (moveAngle angle (runIncrement samples remainder), runRemainder samples remainder) := by
  induction samples generalizing angle remainder with
  | nil => rw [List.foldl_nil, runIncrement, runRemainder, moveAngle_zero]
  | cons sample rest ih =>
    rw [List.foldl_cons, accumulate, ih, moveAngle_moveAngle, runIncrement, runRemainder]

theorem runRemainder_lt (samples : List (Int × Nat)) {remainder : Nat} (h : remainder < 1000000) :
    runRemainder samples remainder < 1000000 := by
  induction samples generalizing remainder with
  | nil => exact h
  | cons sample rest ih => exact ih (remainderAfter_lt _ _ _)

/-- Nothing is lost over a run: the remainders between the samples cancel. -/
theorem runIncrement_add_runRemainder (samples : List (Int × Nat)) (remainder : Nat) :
    1000000 * runIncrement samples remainder + runRemainder samples remainder =
      (samples.map fun y => y.1 * 4096 * (y.2 : Int)).sum + remainder := by
  induction samples generalizing remainder with
  | nil => simp [runIncrement, runRemainder]
  | cons sample rest ih =>
    obtain ⟨r, dt⟩ := sample
    have head := increment_add_remainderAfter r dt remainder
    have tail := ih (remainderAfter r dt remainder)
    rw [runIncrement, runRemainder, List.map_cons, List.sum_cons]
    linarith

end Sys2Proof.Machine

open Sys2Proof Sys2Proof.Machine

/-- Settles O58: the accumulator moves by the increments of the run, whose sum is exact by induction on the samples. -/
theorem accumulationExact : Obligations.AccumulationExact := by
  unfold Obligations.AccumulationExact
  intro samples angle remainder small final
  have final_eq : final = (moveAngle angle (runIncrement samples remainder), runRemainder samples remainder) :=
    foldl_accumulate samples angle remainder
  rw [final_eq]
  exact ⟨runIncrement samples remainder, rfl, runRemainder_lt samples small, runIncrement_add_runRemainder samples remainder⟩

end

section
/-! SUPPORT. Everything a step can do, once for all steps: the grant of the port that is due, the effect of a step whose condition
holds, and the inversion of exec. The invariants are proved by cases on these. -/

namespace Sys2Proof.Machine

/-! ### The grants (R19) -/

/-- A grant of the free port to a client other than scan-out and the inbound client: what it makes of the state. -/
inductive Grant (s : State) : State → Prop
  | audio (free : s.port = none) (a : AudioAccess) (rest : List AudioAccess) (waits : s.au.waiting = a :: rest) :
      Grant s { s with port := some (s.au.access a), au.waiting := rest }
  | motion (free : s.port = none) (w : MotionWork) (due : s.mu.pub.due = some w) : Grant s (s.grantMotion w)
  | housekeeping (free : s.port = none) (w : HousekeepingWork) (due : s.housekeepingDue = some w) :
      Grant s (s.grantHousekeeping w)
  | copy (free : s.port = none) (j : Job) (rest : List Job) (runs : s.ce.jobs = j :: rest) :
      Grant s { s with port := some (j.nextAccess s.ce.progress) }

theorem State.audioMayGo_iff (s : State) : s.audioMayGo = true ↔ s.port = none ∧ s.scanWaiting = none := by
  simp [State.audioMayGo, Option.isNone_iff_eq_none]

/-- The audio client's grant. -/
theorem State.grantAudio_grant (s : State) (free : s.port = none) : s.grantAudio = s ∨ Grant s s.grantAudio := by
  unfold State.grantAudio
  split
  · exact .inr (.audio free _ _ ‹_›)
  · exact .inl rfl

/-- The copy client's grant. -/
theorem State.grantCopy_grant (s : State) (free : s.port = none) : s.grantCopy = s ∨ Grant s s.grantCopy := by
  unfold State.grantCopy
  split
  · split
    · exact .inl rfl
    · exact .inr (.copy free _ _ ‹_›)
  · exact .inl rfl

/-- The grant that is due is a grant to some client. -/
theorem State.grantFirst_grant (s : State) : s.grantFirst = s ∨ Grant s s.grantFirst := by
  unfold State.grantFirst
  split
  · rename_i go
    have free := (s.audioMayGo_iff.mp go).1
    split
    · exact s.grantAudio_grant free
    · exact .inl rfl
    · exact .inr (.motion free _ ‹_›)
    · exact .inr (.housekeeping free _ ‹_›)
    · exact s.grantCopy_grant free
  · exact .inl rfl

/-- What every grant keeps, the grants that are due keep. -/
theorem State.granted_keeps {P : State → Prop} (grant : ∀ s u, Grant s u → P s → P u) (s : State) (h : P s) : P s.granted := by
  have one (v : State) (hv : P v) : P v.grantFirst := by
    rcases v.grantFirst_grant with e | g
    · exact e.symm ▸ hv
    · exact grant _ _ g hv
  exact one _ (one _ h)

/-! ### The effects -/

/-- What a step at headset time `t` makes of the state `s` in which it takes place, before the settling that follows it. A refused
command, and a completion whose owner does no more, are one case each. -/
inductive Effect (t : Time) (s : State) : State → Prop
  | linkUp (down : s.tiu.link = .down) :
      Effect t s { s with
        now := t
        tiu := if Config.holdCount ≤ s.tiu.queue.length ∧ s.tiu.flow = .running
          then { s.tiu with link := .up }.sendFlow .hold .held else { s.tiu with link := .up } }
  | linkDown :
      Effect t s { s with
        now := t
        tiu := (okTags s.tiu.order).foldl (fun u tag => u.setTag tag .free)
          { s.tiu with link := .down, flow := .running, order := [], flowOut := [], sending := none } }
  | discard : Effect t s { s with now := t }.discardMessage
  | write (up : s.tiu.link = .up) (addr : Word) (len : Nat) (data : List Byte) :
      Effect t s ({ s with now := t }.arriveWrite addr len data)
  | read (up : s.tiu.link = .up) (addr : Word) (len : Nat) (tag : Fin 32) :
      Effect t s ({ s with now := t }.arriveRead addr len tag)
  | timeMark (markId : Byte) (consoleTime : BitVec 64) : Effect t s ({ s with now := t }.post (.timeMark markId consoleTime))
  | takeWrite (addr : Word) (len : Nat) (data : List Byte) (rest : List Request)
      (queue : s.tiu.queue = .write addr len data :: rest) (idle : s.tiu.service = .idle) :
      Effect t s ((s.headTaken t rest).takeWrite addr len data)
  | takeRead (addr : Word) (len : Nat) (tag : Fin 32) (rest : List Request)
      (queue : s.tiu.queue = .read addr len tag :: rest) (idle : s.tiu.service = .idle) :
      Effect t s { s.headTaken t rest with
        tiu.service := .presented ⟨.inboundRead tag, addr.toNat, .read len, true⟩ }
  | inboundWriteDone (a : Access) (watched : List (Watched × Nat)) (events : List (Watched × Word)) (port : s.port = some a)
      (kind : a.kind = .inboundWrite watched) (inside : a.stop ≤ Config.dramSize) :
      Effect t s { s.served t a with tiu.service := serviceOf events }
  | inboundReadDone (a : Access) (tag : Fin 32) (port : s.port = some a) (kind : a.kind = .inboundRead tag)
      (inside : a.stop ≤ Config.dramSize) :
      Effect t s { s.served t a with
        tiu := if s.tiu.link = .up then { s.tiu with service := .idle, order := s.tiu.order ++ [.readData tag .ok (a.fetch s.mem)] }
          else { s.tiu with service := .idle }.setTag tag .free }
  | sentFlow : Effect t s { s with now := t, tiu := { s.tiu with sending := none, flowOut := s.tiu.flowOut.tail } }
  | sentAnswer (tag : Fin 32) (data : List Byte) (rest : List Upstream) (order : s.tiu.order = .readData tag .ok data :: rest) :
      Effect t s { s with now := t, tiu := { s.tiu with sending := none, order := rest }.setTag tag .free }
  | sentOther (m : Upstream) (rest : List Upstream) (order : s.tiu.order = m :: rest) (other : ∀ tag, m.answers tag = false) :
      Effect t s { s with now := t, tiu := { s.tiu with sending := none, order := rest } }
  | sentNothing (order : s.tiu.order = []) : Effect t s { s with now := t, tiu := { s.tiu with sending := none } }
  | commandProducer (w : Watched) (v : Word) (rest : List (Watched × Word)) (raising : s.tiu.service = .raising ((w, v) :: rest)) :
      Effect t s ({ s with now := t, tiu.service := serviceOf rest }.takeProducer v)
  | noticeConsumer (w : Watched) (v : Word) (rest : List (Watched × Word)) (raising : s.tiu.service = .raising ((w, v) :: rest)) :
      Effect t s { s with
        now := t
        tiu.service := serviceOf rest
        hku.noticeConsumer := heldConsumer s.hku.noticeProducer v Config.noticeLimit }
  | poseHold (w : Watched) (v : Word) (rest : List (Watched × Word)) (raising : s.tiu.service = .raising ((w, v) :: rest)) :
      Effect t s { s with now := t, tiu.service := serviceOf rest, mu := s.mu.takeHold v }
  | playbackProducer (w : Watched) (v : Word) (rest : List (Watched × Word)) (raising : s.tiu.service = .raising ((w, v) :: rest)) :
      Effect t s { s with now := t, tiu.service := serviceOf rest, au.producer := v }
  | captureConsumer (w : Watched) (v : Word) (rest : List (Watched × Word)) (raising : s.tiu.service = .raising ((w, v) :: rest)) :
      Effect t s ({ s with now := t, tiu.service := serviceOf rest }.takeCaptureConsumer v)
  | cueRequest (w : Watched) (v : Word) (rest : List (Watched × Word)) (raising : s.tiu.service = .raising ((w, v) :: rest)) :
      Effect t s ({ s with now := t, tiu.service := serviceOf rest }.takeCueRequest v)
  | submitWord (k : Fin 4) (w : Watched) (v : Word) (rest : List (Watched × Word))
      (raising : s.tiu.service = .raising ((w, v) :: rest)) :
      Effect t s { s with now := t, tiu.service := serviceOf rest, fcu := s.fcu.submit k v }
  | refused (r : Record) (reason : Reason) (taking : s.hku.work = .taking r) : Effect t s ({ s with now := t }.refuse r reason)
  | applyLayout (r : Record) (taking : s.hku.work = .taking r) (idle : s.regionsIdle = true) :
      Effect t s { s with now := t, hku.work := .tableDue r }
  | tableRead (a : Access) (r : Record) (port : s.port = some a) (kind : a.kind = .layoutTable)
      (inside : a.stop ≤ Config.dramSize) (reading : s.hku.work = .tableReading r) :
      Effect t s ((s.served t a).checkTable r (layoutOf (a.fetch s.mem)))
  | halvesDone (a : Access) (k : Fin 4) (port : s.port = some a) (kind : a.kind = .partHalf k)
      (inside : a.stop ≤ Config.dramSize) : Effect t s (s.served t a).finishTaking
  | halfDone (a : Access) (k : Fin 4) (left : List (Fin 4)) (port : s.port = some a) (kind : a.kind = .partHalf k)
      (inside : a.stop ≤ Config.dramSize) : Effect t s { s.served t a with hku.work := .halves left }
  | restart (r : Record) (taking : s.hku.work = .taking r) : Effect t s ({ s with now := t }.restart r)
  | restartDone (a : Access) (port : s.port = some a) (kind : a.kind = .restart) (inside : a.stop ≤ Config.dramSize) :
      Effect t s (s.served t a).finishRestart
  | restartStep (a : Access) (left : List RestartStep) (port : s.port = some a) (kind : a.kind = .restart)
      (inside : a.stop ≤ Config.dramSize) : Effect t s { s.served t a with hku.work := .restarting left }
  | displayStart (r : Record) (taking : s.hku.work = .taking r) (layout : s.hku.layout ≠ none) (off : s.fcu.display = .off) :
      Effect t s ({ s with now := t }.startDisplay r).finishTaking
  | displayStopRamp (r : Record) (taking : s.hku.work = .taking r) (powering : s.fcu.display = .powering) :
      Effect t s ({ s with now := t, fcu.display := .off, fcu.ramp := none, pu.rail := false }.post
        (.displayStopped .ramp 0)).finishTaking
  | displayStopLater (r : Record) (taking : s.hku.work = .taking r) :
      Effect t s { s with now := t, fcu.stopPending := true }.finishTaking
  | setEyeTrim (r : Record) (taking : s.hku.work = .taking r) :
      Effect t s { s with now := t, ssu.requested := some ⟨r.signed 4, r.signed 8⟩ }.finishTaking
  | motionStart (r : Record) (rate : Rate) (taking : s.hku.work = .taking r) (layout : s.hku.layout ≠ none)
      (off : s.mu.motion = .off) :
      Effect t s { s with now := t, mu := s.mu.started t (r.param 4) rate s.caps.rate }.finishTaking
  | motionStop (r : Record) (taking : s.hku.work = .taking r) :
      Effect t s ({ s with now := t, mu := s.mu.stopped }.dropAccess fun k => k.client == Client.motion).finishTaking
  | setGyroBias (r : Record) (taking : s.hku.work = .taking r) :
      Effect t s { s with now := t, mu.bias := ⟨halfAt r.bytes 4, halfAt r.bytes 6, halfAt r.bytes 8⟩ }.finishTaking
  | playbackStart (r : Record) (taking : s.hku.work = .taking r) (layout : s.hku.layout ≠ none) :
      Effect t s ({ s with now := t }.startPlayback (r.param 4) (r.param 8)).finishTaking
  | playbackStop (r : Record) (taking : s.hku.work = .taking r) :
      Effect t s { s with now := t, au.playbackStop := true }.finishTaking
  | setVolume (r : Record) (taking : s.hku.work = .taking r) :
      Effect t s { s with now := t, au.requestedVolume := some (r.param 4) }.finishTaking
  | captureStart (r : Record) (taking : s.hku.work = .taking r) (layout : s.hku.layout ≠ none) :
      Effect t s { s with now := t, au.capturing := true, au.captureSeq := 1 }.finishTaking
  | captureStop (r : Record) (taking : s.hku.work = .taking r) :
      Effect t s { s with now := t, au.captureStop := true }.finishTaking
  | queueJob (r : Record) (j : Job) (taking : s.hku.work = .taking r) (room : s.ce.jobs.length < Config.jobLimit)
      (free : s.targetBusy j = false) : Effect t s ({ s with now := t }.queueJob j).finishTaking
  | abortCopy (r : Record) (j : Job) (i : Nat) (taking : s.hku.work = .taking r) (found : s.ce.jobs[i]? = some j) :
      Effect t s ({ s with now := t }.abortJob i j).finishTaking
  | powerGrant (r : Record) (taking : s.hku.work = .taking r) :
      Effect t s { s with now := t, pu.requested := some (min 20000 (max 500 (r.param 4))) }.finishTaking
  | powerCeiling (r : Record) (ceiling : Fin 8) (taking : s.hku.work = .taking r) :
      Effect t s ({ s with now := t }.takeCeiling ceiling).finishTaking
  | setAttentionMask (r : Record) (taking : s.hku.work = .taking r) :
      Effect t s { s with now := t, hku.attentionMask := wordAt r.bytes 4 }.finishTaking
  | dataReady (runs : s.mu.motion ≠ .off) : Effect t s { s with now := t, mu := { s.mu with stall := some t }.pendReady t }
  | sampleTaken (reading : SensorReading) (time : Time) (busy : s.mu.sensor.busy = some (.read time true)) :
      Effect t s { { s with now := t, mu.sensor.busy := none }.takeReading reading time with
        mu := ({ s with now := t, mu.sensor.busy := none }.takeReading reading time).mu.nextExchange }
  | sampleDiscarded (time : Time) (busy : s.mu.sensor.busy = some (.read time false)) :
      Effect t s { s with now := t, mu := { s.mu with sensor.busy := none }.nextExchange }
  | exchangeDone (e : Exchange) (setting : SensorSetting) (busy : s.mu.sensor.busy = some e) (sets : e.sets = some setting) :
      Effect t s { s with now := t, mu := { s.mu with sensor.busy := none, sensor.setting := setting }.nextExchange }
  | stalled (start : Time) (running : s.mu.motion = .running) :
      Effect t s ({ s with now := t, mu.motion := .stalled, mu.stall := none }.post (.sensorStall start))
  | granted (u : State) (grant : Grant { s with now := t } u) : Effect t s u
  | idles : Effect t s { s with now := t }
  | ringWritten (a : Access) (r : PoseRecord) (port : s.port = some a) (kind : a.kind = .ringControl r) (live : a.live = true)
      (inside : a.stop ≤ Config.dramSize) :
      Effect t s { (s.served t a).noteRing s.poseLength r with mu.pub := s.mu.pub.written r }
  | exchangeWritten (a : Access) (r : PoseRecord) (into : Ex) (port : s.port = some a) (kind : a.kind = .exchangeRecord r into)
      (live : a.live = true) (inside : a.stop ≤ Config.dramSize) :
      Effect t s { s.served t a with mu.pub.exchange := s.mu.pub.exchange.recordWritten r.sequence into }
  | recordWritten (a : Access) (port : s.port = some a) (kind : a.kind = .ringRecord) (live : a.live = true)
      (inside : a.stop ≤ Config.dramSize) : Effect t s { s.served t a with mu.pub.headWritten := true }
  | rampEnds (powering : s.fcu.display = .powering) :
      Effect t s { s with
        now := t, fcu.display := .blank, fcu.ramp := none, ssu.output := .fill, hku.statusTimer := none }.boundary
  | frameBoundary (runs : s.fcu.display = .blank ∨ s.fcu.display = .showing) : Effect t s { s with now := t }.boundary
  | consoleHalfRead (a : Access) (k : Fin 4) (h : ConsoleHalf) (port : s.port = some a) (kind : a.kind = .consoleHalf k)
      (inside : a.stop ≤ Config.dramSize) :
      Effect t s (((s.served t a).updateSlot k fun x => { x with half := some h }).showSlot k h)
  | rowDue : Effect t s { s with now := t, ssu.rowsDue := s.ssu.rowsDue + 1 }
  | pixelsRead (a : Access) (eye : Eye) (ssu : Ssu) (port : s.port = some a) (kind : a.kind = .pixels eye)
      (inside : a.stop ≤ Config.dramSize) : Effect t s { s.served t a with ssu := ssu }
  | lit (on : Bool) : Effect t s { s with now := t, ssu.litInterval := on }
  | segmentHeld (a : Access) (bytes : List Byte) (port : s.port = some a) (kind : a.kind = .copyRead)
      (inside : a.stop ≤ Config.dramSize) : Effect t s { s.served t a with ce.progress.held := some bytes }
  | readAborts (a : Access) (j : Job) (rest : List Job) (port : s.port = some a) (kind : a.kind = .copyRead)
      (inside : a.stop ≤ Config.dramSize) (jobs : s.ce.jobs = j :: rest) :
      Effect t s ((s.served t a).endRunning j .aborted s.ce.progress.written)
  | segmentWritten (a : Access) (j : Job) (rest : List Job) (len : Nat) (port : s.port = some a) (kind : a.kind = .copyWrite)
      (inside : a.stop ≤ Config.dramSize) (jobs : s.ce.jobs = j :: rest) : Effect t s ((s.served t a).copyWritten j len)
  | blockBoundary : Effect t s { s with now := t }.blockBoundary
  | cueRefused (a : Access) (w : AudioAccess) (index : Fin 4) (mode : CueMode) (f : CueFault) (port : s.port = some a)
      (kind : a.kind = .audio w) (inside : a.stop ≤ Config.dramSize) :
      Effect t s ({ s.served t a with au.startingCue := none }.post (.cueRefused index mode f))
  | cueStarts (a : Access) (w : AudioAccess) (c : Cue) (late stopping : Bool) (port : s.port = some a)
      (kind : a.kind = .audio w) (inside : a.stop ≤ Config.dramSize) :
      Effect t s ({ s.served t a with au.startingCue := none }.startCue c late stopping)
  | captureWritten (a : Access) (w : AudioAccess) (hku : List Notice) (port : s.port = some a) (kind : a.kind = .audio w)
      (inside : a.stop ≤ Config.dramSize) : Effect t s (hku.foldl State.post (s.served t a))
  | audioRead (a : Access) (w : AudioAccess) (b : Block) (port : s.port = some a) (kind : a.kind = .audio w)
      (inside : a.stop ≤ Config.dramSize) : Effect t s { s.served t a with au.block := b }
  | codecSilence : Effect t s { s with now := t, au.output := ⟨0, 0⟩ }
  | codecFrame (mic : Frame) : Effect t s { s with now := t, au := s.au.frame mic }
  | sampleSkipped : Effect t s { s with now := t, pu.nextSample := some (t + Config.millisecond) }
  | powerSample (r : MonitorReading) :
      Effect t s ({ s with now := t, pu.nextSample := some (t + Config.millisecond) }.takeSample r)
  | noticeWritten (a : Access) (p : Posted) (rest : List Posted) (port : s.port = some a) (kind : a.kind = .noticeEntry)
      (inside : a.stop ≤ Config.dramSize) (list : s.hku.writeList = p :: rest) :
      Effect t s { s.served t a with
        hku.writeList := rest
        hku.noticeWritten := s.hku.noticeWritten + 1
        hku.unshown := s.hku.unshown ++ [(p.position, p.notice.code)] }
  | noticesShown (a : Access) (written : Word) (port : s.port = some a) (kind : a.kind = .noticeProducer written)
      (inside : a.stop ≤ Config.dramSize) : Effect t s ((s.served t a).showNotices written)
  | statusTimer : Effect t s { s with
        now := t, hku.statusDue := true, hku.statusTimer := some (t + Config.statusPeriod) }
  | bootRecord (flash : Option FlashRecord) (free : s.port = none) (access : Access) (kind : access.kind = .bootFields) :
      Effect t s { s with
        now := t
        hku := { s.hku with
          flashDue := false, settings := (bootFrom flash).1, source := some (bootFrom flash).2.1, adjusted := (bootFrom flash).2.2 }
        ssu.trims := (bootFrom flash).1.trims
        mu.bias := (bootFrom flash).1.bias
        pu.grant := (bootFrom flash).1.defaultGrant
        port := some access }
  | bootFlash (a : Access) (port : s.port = some a) (kind : a.kind.client = .housekeeping) (inside : a.stop ≤ Config.dramSize) :
      Effect t s { s.served t a with hku.flashDue := true }
  | bootNext (a next : Access) (port : s.port = some a) (kind : a.kind.client = .housekeeping) (inside : a.stop ≤ Config.dramSize)
      (nextKind : next.kind.client = .housekeeping) : Effect t s { s.served t a with port := some next }
  | bootComplete (a : Access) (port : s.port = some a) (kind : a.kind.client = .housekeeping) (inside : a.stop ≤ Config.dramSize) :
      Effect t s { s.served t a with
        hku.part := .ready
        hku.statusTimer := some (t + Config.statusPeriod)
        au.nextBoundary := some t
        pu.nextSample := some (t + Config.millisecond) }
  | completes (a : Access) (port : s.port = some a) (other : a.kind.client ≠ .inbound) (inside : a.stop ≤ Config.dramSize) :
      Effect t s (s.served t a)

end Sys2Proof.Machine
end

section
/-! SUPPORT. The inversion of exec: every step is the grants due, an effect and the settling, or POWER_ON. -/

namespace Sys2Proof.Machine

/-- What a step other than POWER_ON can do: nothing, the grants due, or an effect with the settling behind it, in the state as it
stands or with the grants due made. -/
def State.Reaches (s s' : State) : Prop :=
  s' = s ∨ s' = s.granted ∨ ∃ t v u, (v = s ∨ v = s.granted) ∧ Effect t v u ∧ s' = u.settle

/-! ### The shared operations of a step -/

theorem State.reaches_granted (s : State) : s.Reaches s.granted := .inr (.inl rfl)

theorem State.reaches_fire {s s' : State} {t : Time} {c : Bool} {f : State → State} (h : s.fire t c f = .next s')
    (effect : c = true → Effect t s (f { s with now := t })) : s.Reaches s' := by
  rcases State.fire_cases h with ⟨_, e⟩ | ⟨hc, e⟩
  · exact .inl e
  · exact .inr (.inr ⟨t, s, _, .inl rfl, effect hc, e⟩)

theorem State.reaches_fire_granted {s s' : State} {t : Time} {c : Bool} {f : State → State} (h : s.granted.fire t c f = .next s')
    (effect : c = true → Effect t s.granted (f { s.granted with now := t })) : s.Reaches s' := by
  rcases State.fire_cases h with ⟨_, e⟩ | ⟨hc, e⟩
  · exact .inr (.inl e)
  · exact .inr (.inr ⟨t, s.granted, _, .inr rfl, effect hc, e⟩)

theorem State.reaches_done {α : Type} {s s' : State} {t : Time} {select : AccessKind → Option α}
    {k : α → Bool → List Byte → State → State} (h : s.portDone t select k = .next s')
    (effect : ∀ a x, s.granted.port = some a → select a.kind = some x → a.stop ≤ Config.dramSize →
      Effect t s.granted (k x a.live (a.fetch s.granted.mem) (s.granted.served t a))) : s.Reaches s' := by
  rcases State.portDone_cases h with e | ⟨a, x, hp, hx, hd, e⟩
  · exact .inr (.inl e)
  · exact .inr (.inr ⟨t, s.granted, _, .inr rfl, s.granted_mem ▸ effect a x hp hx hd, e⟩)

theorem State.reaches_taken {s s' : State} {t : Time} {isCode : Half → Bool} {k : Record → State → State}
    (h : s.takeRecord t isCode k = .next s')
    (effect : ∀ v r, v.hku.work = .taking r → Effect t v (k r { v with now := t })) : s.Reaches s' := by
  rcases State.takeRecord_cases h with e | ⟨r, hw, _, e⟩
  · exact .inr (.inl e)
  · exact .inr (.inr ⟨t, s.beforeTaking t, _, s.beforeTaking_cases t, effect _ r hw, e⟩)

theorem State.reaches_event {α : Type} {s s' : State} {t : Time} {select : Watched → Option α} {k : α → Word → State → State}
    (h : s.takeEvent t select k = .next s')
    (effect : ∀ v w x n rest, v.tiu.service = .raising ((w, n) :: rest) → select w = some x →
      Effect t v (k x n { v with now := t, tiu.service := serviceOf rest })) : s.Reaches s' := by
  rcases State.takeEvent_cases h with e | ⟨w, n, rest, x, hs, hx, e⟩
  · exact .inr (.inl e)
  · exact .inr (.inr ⟨t, s.beforeEvent t, _, s.beforeEvent_cases t, effect _ w x n rest ((s.beforeEvent_tiu t).symm ▸ hs) hx, e⟩)

/-! ### The tether (chapter 1) -/

section
variable {s s' : State} {t : Time}

theorem execLinkUp_reaches (h : execLinkUp t s = .next s') : s.Reaches s' := by
  unfold execLinkUp at h
  refine State.reaches_fire_granted h fun c => ?_
  simp only [Bool.and_eq_true, decide_eq_true_eq] at c
  exact .linkUp c.2

theorem execLinkDown_reaches (h : execLinkDown t s = .next s') : s.Reaches s' := by
  unfold execLinkDown at h
  exact State.reaches_fire_granted h fun _ => .linkDown

theorem execBadMessage_reaches (h : execBadMessage t s = .next s') : s.Reaches s' := by
  unfold execBadMessage at h
  exact State.reaches_fire_granted h fun _ => .discard

theorem execWrite_reaches {addr : Word} {len : Half} {data : List Byte} (h : execWrite t addr len data s = .next s') :
    s.Reaches s' := by
  unfold execWrite at h
  refine State.reaches_fire_granted h fun up => ?_
  dsimp only
  split
  · exact .write (of_decide_eq_true up) ..
  · exact .discard

theorem execRead_reaches {addr : Word} {len : Half} {tag : Byte} (h : execRead t addr len tag s = .next s') :
    s.Reaches s' := by
  unfold execRead at h
  refine State.reaches_fire_granted h fun up => ?_
  dsimp only
  split
  · exact .read (of_decide_eq_true up) ..
  · exact .discard

theorem execTimeMark_reaches {markId : Byte} {consoleTime : BitVec 64} (h : execTimeMark t markId consoleTime s = .next s') :
    s.Reaches s' := by
  unfold execTimeMark at h
  exact State.reaches_fire_granted h fun _ => .timeMark ..

theorem execRequestTake_reaches (h : execRequestTake t s = .next s') : s.Reaches s' := by
  unfold execRequestTake at h
  dsimp only at h
  split at h
  · cases h; exact s.reaches_granted
  · refine State.reaches_fire_granted h fun idle => ?_
    rename_i r rest queue
    cases r with
    | write addr len data => exact .takeWrite addr len data rest queue (of_decide_eq_true idle)
    | read addr len tag => exact .takeRead addr len tag rest queue (of_decide_eq_true idle)

theorem execInboundWriteDone_reaches (h : execInboundWriteDone t s = .next s') : s.Reaches s' := by
  unfold execInboundWriteDone at h
  refine State.reaches_done h fun a x port select inside => ?_
  split at select
  · cases select; exact .inboundWriteDone a _ _ port ‹_› inside
  · cases select

theorem execInboundReadDone_reaches (h : execInboundReadDone t s = .next s') : s.Reaches s' := by
  unfold execInboundReadDone at h
  refine State.reaches_done h fun a x port select inside => ?_
  split at select
  · cases select; exact .inboundReadDone a _ port ‹_› inside
  · cases select

theorem execUpstreamMessageSent_reaches (h : execUpstreamMessageSent t s = .next s') : s.Reaches s' := by
  unfold execUpstreamMessageSent at h
  refine State.reaches_fire_granted h fun sending => ?_
  dsimp only
  split
  · exact .sentAnswer _ _ _ ‹_›
  · rename_i m rest notOk _ order
    refine .sentOther _ _ order fun tag => ?_
    match m, notOk with
    | .readData x .ok d, notOk => exact absurd rfl (notOk x d)
    | .readData _ .refusedFull _, _ | .readData _ .tagInUse _, _ | .readData _ .outOfRange _, _ | .attention _ _, _ => rfl
  · exact .sentNothing ‹_›
  · exact .sentFlow
  · rename_i none_sent
    rw [none_sent] at sending
    cases sending

/-! ### The watched words (R24) -/

theorem execCommandProducer_reaches (h : execCommandProducer t s = .next s') : s.Reaches s' := by
  unfold execCommandProducer at h
  exact State.reaches_event h fun _ w _ n rest raising _ => .commandProducer w n rest raising

theorem execNoticeConsumer_reaches (h : execNoticeConsumer t s = .next s') : s.Reaches s' := by
  unfold execNoticeConsumer at h
  exact State.reaches_event h fun _ w _ n rest raising _ => .noticeConsumer w n rest raising

theorem execPoseHold_reaches (h : execPoseHold t s = .next s') : s.Reaches s' := by
  unfold execPoseHold at h
  exact State.reaches_event h fun _ w _ n rest raising _ => .poseHold w n rest raising

theorem execPlaybackProducer_reaches (h : execPlaybackProducer t s = .next s') : s.Reaches s' := by
  unfold execPlaybackProducer at h
  exact State.reaches_event h fun _ w _ n rest raising _ => .playbackProducer w n rest raising

theorem execCaptureConsumer_reaches (h : execCaptureConsumer t s = .next s') : s.Reaches s' := by
  unfold execCaptureConsumer at h
  exact State.reaches_event h fun _ w _ n rest raising _ => .captureConsumer w n rest raising

theorem execCueRequest_reaches (h : execCueRequest t s = .next s') : s.Reaches s' := by
  unfold execCueRequest at h
  exact State.reaches_event h fun _ w _ n rest raising _ => .cueRequest w n rest raising

theorem execSubmitWord_reaches (h : execSubmitWord t s = .next s') : s.Reaches s' := by
  unfold execSubmitWord at h
  exact State.reaches_event h fun _ w k n rest raising _ => .submitWord k w n rest raising

/-! ### Commands of the HKU (chapter 2) -/

theorem execUnknownCommand_reaches (h : execUnknownCommand t s = .next s') : s.Reaches s' := by
  unfold execUnknownCommand at h
  exact State.reaches_taken h fun _ r taking => .refused r .unknown taking

theorem execCommandConsumerWriteDone_reaches (h : execCommandConsumerWriteDone t s = .next s') : s.Reaches s' := by
  unfold execCommandConsumerWriteDone at h
  refine State.reaches_done h fun a x port select inside => ?_
  split at select
  · rename_i kind
    exact .completes a port (by simp [kind, AccessKind.client]) inside
  · cases select

theorem execApplyLayout_reaches (h : execApplyLayout t s = .next s') : s.Reaches s' := by
  unfold execApplyLayout at h
  refine State.reaches_taken h fun _ r taking => ?_
  dsimp only
  split
  · exact .applyLayout r taking ‹_›
  · exact .refused r .notIdle taking

theorem execLayoutTableRead_reaches (h : execLayoutTableRead t s = .next s') : s.Reaches s' := by
  unfold execLayoutTableRead at h
  refine State.reaches_done h fun a x port select inside => ?_
  split at select
  · rename_i kind
    have other : a.kind.client ≠ .inbound := by simp [kind, AccessKind.client]
    split
    · exact .tableRead a _ port kind inside ‹_›
    all_goals exact .completes a port other inside
  · cases select

theorem execPartHalfWriteDone_reaches (h : execPartHalfWriteDone t s = .next s') : s.Reaches s' := by
  unfold execPartHalfWriteDone at h
  refine State.reaches_done h fun a x port select inside => ?_
  split at select
  · rename_i k kind
    have other : a.kind.client ≠ .inbound := by simp [kind, AccessKind.client]
    dsimp only
    split
    · split
      · exact .halvesDone a _ port kind inside
      · exact .halfDone a _ _ port kind inside
    all_goals exact .completes a port other inside
  · cases select

theorem execRestart_reaches (h : execRestart t s = .next s') : s.Reaches s' := by
  unfold execRestart at h
  exact State.reaches_taken h fun _ r taking => .restart r taking

theorem execRestartWriteDone_reaches (h : execRestartWriteDone t s = .next s') : s.Reaches s' := by
  unfold execRestartWriteDone at h
  refine State.reaches_done h fun a x port select inside => ?_
  split at select
  · rename_i kind
    have other : a.kind.client ≠ .inbound := by simp [kind, AccessKind.client]
    dsimp only
    split
    · exact .restartStep a _ port kind inside
    · exact .restartDone a port kind inside
    · exact .restartStep a _ port kind inside
    all_goals exact .completes a port other inside
  · cases select

/-! ### Commands of the other blocks -/

theorem execPlaybackStart_reaches (h : execPlaybackStart t s = .next s') : s.Reaches s' := by
  unfold execPlaybackStart at h
  refine State.reaches_taken h fun v r taking => ?_
  dsimp only
  split
  · exact .refused r _ taking
  · split
    · exact .refused r _ taking
    · rename_i layout
      split
      · exact .refused r _ taking
      · exact .playbackStart r taking fun e => layout (by simp [e])

theorem execPlaybackStop_reaches (h : execPlaybackStop t s = .next s') : s.Reaches s' := by
  unfold execPlaybackStop at h
  refine State.reaches_taken h fun v r taking => ?_
  dsimp only
  split
  · exact .refused r _ taking
  · exact .playbackStop r taking

theorem execSetVolume_reaches (h : execSetVolume t s = .next s') : s.Reaches s' := by
  unfold execSetVolume at h
  refine State.reaches_taken h fun v r taking => ?_
  dsimp only
  split
  · exact .setVolume r taking
  · exact .refused r _ taking

theorem execCaptureStart_reaches (h : execCaptureStart t s = .next s') : s.Reaches s' := by
  unfold execCaptureStart at h
  refine State.reaches_taken h fun v r taking => ?_
  dsimp only
  split
  · exact .refused r _ taking
  · rename_i layout
    split
    · exact .refused r _ taking
    · exact .captureStart r taking fun e => layout (by simp [e])

theorem execCaptureStop_reaches (h : execCaptureStop t s = .next s') : s.Reaches s' := by
  unfold execCaptureStop at h
  refine State.reaches_taken h fun v r taking => ?_
  dsimp only
  split
  · exact .captureStop r taking
  · exact .refused r _ taking

/-- The taking of a COPY or FILL record (R125 to R127). -/
theorem State.takeJob_effect {v : State} {r : Record} (j : Job) (taking : v.hku.work = .taking r) :
    Effect t v ({ v with now := t }.takeJob r j) := by
  unfold State.takeJob
  split
  · exact .refused r _ taking
  · split
    · exact .refused r _ taking
    · rename_i room
      split
      · exact .refused r _ taking
      · split
        · exact .refused r _ taking
        · rename_i free
          exact .queueJob r j taking (Nat.lt_of_not_le room) (Bool.eq_false_iff.mpr free)

theorem execCopy_reaches (h : execCopy t s = .next s') : s.Reaches s' := by
  unfold execCopy at h
  exact State.reaches_taken h fun _ r taking => State.takeJob_effect _ taking

theorem execFill_reaches (h : execFill t s = .next s') : s.Reaches s' := by
  unfold execFill at h
  exact State.reaches_taken h fun _ r taking => State.takeJob_effect _ taking

theorem execAbortCopy_reaches (h : execAbortCopy t s = .next s') : s.Reaches s' := by
  unfold execAbortCopy at h
  refine State.reaches_taken h fun v r taking => ?_
  dsimp only
  split
  · rename_i j i found
    exact .abortCopy r j i taking (List.mk_mem_zipIdx_iff_getElem?.mp (List.mem_of_find?_eq_some found))
  · exact .refused r _ taking

theorem execDisplayStart_reaches (h : execDisplayStart t s = .next s') : s.Reaches s' := by
  unfold execDisplayStart at h
  refine State.reaches_taken h fun v r taking => ?_
  dsimp only
  split
  · exact .refused r _ taking
  · split
    · exact .refused r _ taking
    · rename_i layout
      split
      · exact .refused r _ taking
      · rename_i off
        exact .displayStart r taking (fun e => layout (by simp [e])) (Decidable.not_not.mp off)

theorem execDisplayStop_reaches (h : execDisplayStop t s = .next s') : s.Reaches s' := by
  unfold execDisplayStop at h
  refine State.reaches_taken h fun v r taking => ?_
  dsimp only
  split
  · exact .refused r _ taking
  · exact .displayStopRamp r taking ‹_›
  all_goals exact .displayStopLater r taking

theorem execSetEyeTrim_reaches (h : execSetEyeTrim t s = .next s') : s.Reaches s' := by
  unfold execSetEyeTrim at h
  refine State.reaches_taken h fun v r taking => ?_
  dsimp only
  split
  · exact .setEyeTrim r taking
  · exact .refused r _ taking

theorem execPowerGrant_reaches (h : execPowerGrant t s = .next s') : s.Reaches s' := by
  unfold execPowerGrant at h
  exact State.reaches_taken h fun _ r taking => .powerGrant r taking

theorem execPowerCeiling_reaches (h : execPowerCeiling t s = .next s') : s.Reaches s' := by
  unfold execPowerCeiling at h
  refine State.reaches_taken h fun v r taking => ?_
  split
  · exact .powerCeiling r _ taking
  · exact .refused r _ taking

theorem execMotionStart_reaches (h : execMotionStart t s = .next s') : s.Reaches s' := by
  unfold execMotionStart at h
  refine State.reaches_taken h fun v r taking => ?_
  dsimp only
  split
  · split
    · exact .refused r _ taking
    · rename_i layout
      split
      · exact .refused r _ taking
      · rename_i off
        exact .motionStart r _ taking (fun e => layout (by simp [e])) (Decidable.not_not.mp off)
  · exact .refused r _ taking

theorem execMotionStop_reaches (h : execMotionStop t s = .next s') : s.Reaches s' := by
  unfold execMotionStop at h
  refine State.reaches_taken h fun v r taking => ?_
  dsimp only
  split
  · exact .refused r _ taking
  · exact .motionStop r taking

theorem execSetGyroBias_reaches (h : execSetGyroBias t s = .next s') : s.Reaches s' := by
  unfold execSetGyroBias at h
  exact State.reaches_taken h fun _ r taking => .setGyroBias r taking

theorem execSetAttentionMask_reaches (h : execSetAttentionMask t s = .next s') : s.Reaches s' := by
  unfold execSetAttentionMask at h
  exact State.reaches_taken h fun _ r taking => .setAttentionMask r taking

/-! ### The grant rows (R19) -/

/-- A grant of the port, or none where its client makes no access. -/
theorem Effect.of_grant {f : State → State} (h : f { s with now := t } = { s with now := t } ∨
    Grant { s with now := t } (f { s with now := t })) : Effect t s (f { s with now := t }) := by
  rcases h with e | g
  · exact e.symm ▸ .idles
  · exact .granted _ g

theorem State.free_of_motionMayGo (go : s.motionMayGo = true) : s.port = none := by
  simp only [State.motionMayGo, Bool.and_eq_true] at go
  exact (s.audioMayGo_iff.mp go.1.1).1

theorem State.free_of_housekeepingMayGo (go : s.housekeepingMayGo = true) : s.port = none := by
  simp only [State.housekeepingMayGo, Bool.and_eq_true] at go
  exact State.free_of_motionMayGo go.1

theorem execAudioGrant_reaches (h : execAudioGrant t s = .next s') : s.Reaches s' := by
  refine State.reaches_fire h fun go => .of_grant (State.grantAudio_grant _ ?_)
  simp only [Bool.and_eq_true] at go
  exact (s.audioMayGo_iff.mp go.1).1

theorem execMotionGrant_reaches (h : execMotionGrant t s = .next s') : s.Reaches s' := by
  unfold execMotionGrant at h
  split at h
  · exact State.reaches_fire h fun go => .granted _ (.motion (s := { s with now := t }) (State.free_of_motionMayGo go) _ ‹_›)
  · cases h; exact .inl rfl

theorem execHousekeepingGrant_reaches (h : execHousekeepingGrant t s = .next s') : s.Reaches s' := by
  unfold execHousekeepingGrant at h
  split at h
  · exact State.reaches_fire h fun go => .granted _
      (.housekeeping (s := { s with now := t }) (State.free_of_housekeepingMayGo go) _ ‹_›)
  · cases h; exact .inl rfl

theorem execCopyGrant_reaches (h : execCopyGrant t s = .next s') : s.Reaches s' := by
  refine State.reaches_fire h fun go => .of_grant (State.grantCopy_grant _ ?_)
  simp only [State.copyMayGo, Bool.and_eq_true] at go
  exact State.free_of_housekeepingMayGo go.1

/-! ### Motion (chapters 3 and 4) -/

theorem execDataReady_reaches (h : execDataReady t s = .next s') : s.Reaches s' := by
  unfold execDataReady at h
  exact State.reaches_fire_granted h fun runs => .dataReady (of_decide_eq_true runs)

theorem execSensorReadDone_reaches {reading : SensorReading} (h : execSensorReadDone t reading s = .next s') :
    s.Reaches s' := by
  unfold execSensorReadDone at h
  dsimp only at h
  split at h
  · rename_i time wanted busy
    refine State.reaches_fire_granted h fun _ => ?_
    cases wanted
    · exact .sampleDiscarded time busy
    · exact .sampleTaken reading time busy
  all_goals cases h; exact s.reaches_granted

theorem execSensorExchangeDone_reaches (h : execSensorExchangeDone t s = .next s') : s.Reaches s' := by
  unfold execSensorExchangeDone at h
  dsimp only at h
  split at h
  · rename_i setting busy
    obtain ⟨e, busy, sets⟩ := Option.bind_eq_some_iff.mp busy
    exact State.reaches_fire_granted h fun _ => .exchangeDone e setting busy sets
  · cases h; exact s.reaches_granted

theorem execStallTimerExpiry_reaches (h : execStallTimerExpiry t s = .next s') : s.Reaches s' := by
  unfold execStallTimerExpiry at h
  dsimp only at h
  split at h
  · refine State.reaches_fire_granted h fun c => ?_
    simp only [Bool.and_eq_true, decide_eq_true_eq] at c
    exact .stalled _ c.1
  · cases h; exact s.reaches_granted

theorem execPoseRingWritten_reaches (h : execPoseRingWritten t s = .next s') : s.Reaches s' := by
  unfold execPoseRingWritten at h
  refine State.reaches_done h fun a x port select inside => ?_
  split at select
  · rename_i r kind
    cases select
    dsimp only
    split
    · exact .ringWritten a _ port kind ‹_› inside
    · exact .completes a port (by simp [kind, AccessKind.client]) inside
  · cases select

theorem execExchangeRecordWriteDone_reaches (h : execExchangeRecordWriteDone t s = .next s') : s.Reaches s' := by
  unfold execExchangeRecordWriteDone at h
  refine State.reaches_done h fun a x port select inside => ?_
  split at select
  · rename_i r into kind
    cases select
    dsimp only
    split
    · exact .exchangeWritten a _ _ port kind ‹_› inside
    · exact .completes a port (by simp [kind, AccessKind.client]) inside
  · cases select

theorem execMotionAccessDone_reaches (h : execMotionAccessDone t s = .next s') : s.Reaches s' := by
  unfold execMotionAccessDone at h
  refine State.reaches_done h fun a x port select inside => ?_
  split at select
  case h_4 kind =>
    cases select
    dsimp only
    split
    · rename_i live
      exact .recordWritten a port kind (by simpa using live) inside
    · exact .completes a port (by simp [kind, AccessKind.client]) inside
  case h_5 => cases select
  all_goals
    rename_i kind
    cases select
    exact .completes a port (by simp [kind, AccessKind.client]) inside

/-! ### Display (chapters 5 and 6) -/

theorem execRampTimerExpiry_reaches (h : execRampTimerExpiry t s = .next s') : s.Reaches s' := by
  unfold execRampTimerExpiry at h
  refine State.reaches_fire_granted h fun c => ?_
  simp only [Bool.and_eq_true, decide_eq_true_eq] at c
  exact .rampEnds c.1

theorem execFrameBoundary_reaches (h : execFrameBoundary t s = .next s') : s.Reaches s' := by
  unfold execFrameBoundary at h
  refine State.reaches_fire_granted h fun c => ?_
  simp only [Bool.and_eq_true, Bool.or_eq_true, decide_eq_true_eq] at c
  exact .frameBoundary c.1

theorem execConsoleHalfReadDone_reaches (h : execConsoleHalfReadDone t s = .next s') : s.Reaches s' := by
  unfold execConsoleHalfReadDone at h
  refine State.reaches_done h fun a x port select inside => ?_
  split at select
  · rename_i k kind
    cases select
    split
    · exact .consoleHalfRead a _ _ port kind inside
    · exact .completes a port (by simp [kind, AccessKind.client]) inside
  · cases select

theorem execScanRowDue_reaches (h : execScanRowDue t s = .next s') : s.Reaches s' := by
  unfold execScanRowDue at h
  exact State.reaches_fire_granted h fun _ => .rowDue

theorem execScanAccessDone_reaches (h : execScanAccessDone t s = .next s') : s.Reaches s' := by
  unfold execScanAccessDone at h
  refine State.reaches_done h fun a x port select inside => ?_
  split at select
  · rename_i eye kind
    cases select
    dsimp only
    split
    · exact .pixelsRead a _ _ port kind inside
    · exact .completes a port (by simp [kind, AccessKind.client]) inside
  · cases select

theorem execLitIntervalStart_reaches (h : execLitIntervalStart t s = .next s') : s.Reaches s' := by
  unfold execLitIntervalStart at h
  exact State.reaches_fire_granted h fun _ => .lit true

theorem execLitIntervalEnd_reaches (h : execLitIntervalEnd t s = .next s') : s.Reaches s' := by
  unfold execLitIntervalEnd at h
  exact State.reaches_fire_granted h fun _ => .lit false

/-! ### Copy engine (chapter 7) -/

theorem execCopyReadDone_reaches (h : execCopyReadDone t s = .next s') : s.Reaches s' := by
  unfold execCopyReadDone at h
  refine State.reaches_done h fun a x port select inside => ?_
  split at select
  · rename_i kind
    dsimp only
    split
    · rename_i jobs
      split
      · exact .readAborts a _ _ port kind inside jobs
      · exact .segmentHeld a _ port kind inside
    · exact .completes a port (by simp [kind, AccessKind.client]) inside
  · cases select

theorem execCopyWriteDone_reaches (h : execCopyWriteDone t s = .next s') : s.Reaches s' := by
  unfold execCopyWriteDone at h
  refine State.reaches_done h fun a x port select inside => ?_
  split at select
  · rename_i kind
    split
    · exact .segmentWritten a _ _ _ port kind inside ‹_›
    · exact .completes a port (by simp [kind, AccessKind.client]) inside
  · cases select

/-! ### Audio (chapter 8) -/

theorem execBlockBoundary_reaches (h : execBlockBoundary t s = .next s') : s.Reaches s' := by
  unfold execBlockBoundary at h
  exact State.reaches_fire_granted h fun _ => .blockBoundary

theorem execCueEntryRead_reaches (h : execCueEntryRead t s = .next s') : s.Reaches s' := by
  unfold execCueEntryRead at h
  refine State.reaches_done h fun a x port select inside => ?_
  split at select
  · rename_i kind
    cases select
    dsimp only
    split
    · split
      · exact .cueRefused a _ _ _ _ port kind inside
      · exact .cueStarts a _ _ _ _ port kind inside
    · exact .completes a port (by simp [kind, AccessKind.client]) inside
  · cases select

theorem execCaptureRecordWriteDone_reaches (h : execCaptureRecordWriteDone t s = .next s') : s.Reaches s' := by
  unfold execCaptureRecordWriteDone at h
  refine State.reaches_done h fun a x port select inside => ?_
  split at select
  · rename_i sequence position length late stopping kind
    cases select
    dsimp only
    split <;> split
    · exact .captureWritten a _ [.captureHalf position sequence, .captureWrap position sequence] port kind inside
    · exact .captureWritten a _ [.captureWrap position sequence] port kind inside
    · exact .captureWritten a _ [.captureHalf position sequence] port kind inside
    · exact .captureWritten a _ [] port kind inside
  · cases select

theorem execAudioAccessDone_reaches (h : execAudioAccessDone t s = .next s') : s.Reaches s' := by
  unfold execAudioAccessDone at h
  refine State.reaches_done h fun a x port select inside => ?_
  split at select
  · cases select
  · cases select
  · rename_i kind
    cases select
    dsimp only
    split
    · exact .completes a port (by simp [kind, AccessKind.client]) inside
    · exact .audioRead a _ _ port kind inside
  · cases select

theorem execCodecFrame_reaches {mic : Frame} (h : execCodecFrame t mic s = .next s') : s.Reaches s' := by
  unfold execCodecFrame at h
  dsimp only at h
  split at h
  · exact State.reaches_fire_granted h fun _ => .codecSilence
  · exact State.reaches_fire_granted h fun _ => .codecFrame mic

/-! ### Power (chapter 9) -/

theorem execPowerSample_reaches {reading : Option MonitorReading} (h : execPowerSample t reading s = .next s') :
    s.Reaches s' := by
  unfold execPowerSample at h
  refine State.reaches_fire_granted h fun _ => ?_
  cases reading with
  | none => exact .sampleSkipped
  | some r => exact .powerSample r

/-! ### Reports (chapter 10) -/

theorem execNoticeEntryWriteDone_reaches (h : execNoticeEntryWriteDone t s = .next s') : s.Reaches s' := by
  unfold execNoticeEntryWriteDone at h
  refine State.reaches_done h fun a x port select inside => ?_
  split at select
  · rename_i kind
    dsimp only
    split
    · exact .noticeWritten a _ _ port kind inside ‹_›
    · exact .completes a port (by simp [kind, AccessKind.client]) inside
  · cases select

theorem execNoticeProducerWriteDone_reaches (h : execNoticeProducerWriteDone t s = .next s') : s.Reaches s' := by
  unfold execNoticeProducerWriteDone at h
  refine State.reaches_done h fun a x port select inside => ?_
  split at select
  · rename_i written kind
    cases select
    split
    · exact .noticesShown a _ port kind inside
    · exact .completes a port (by simp [kind, AccessKind.client]) inside
  · cases select

theorem execStatusTimerExpiry_reaches (h : execStatusTimerExpiry t s = .next s') : s.Reaches s' := by
  unfold execStatusTimerExpiry at h
  exact State.reaches_fire_granted h fun _ => .statusTimer

theorem execStatusBlockWriteDone_reaches (h : execStatusBlockWriteDone t s = .next s') : s.Reaches s' := by
  unfold execStatusBlockWriteDone at h
  refine State.reaches_done h fun a x port select inside => ?_
  split at select
  case h_3 => cases select
  all_goals
    rename_i kind
    exact .completes a port (by simp [kind, AccessKind.client]) inside

/-! ### The boot load (R26) -/

theorem execBootRecordRead_reaches {flash : Option FlashRecord} (h : execBootRecordRead t flash s = .next s') :
    s.Reaches s' := by
  unfold execBootRecordRead at h
  refine State.reaches_fire_granted h fun c => ?_
  simp only [Bool.and_eq_true, Option.isNone_iff_eq_none] at c
  exact .bootRecord flash c.2 _ rfl

theorem execBootWriteDone_reaches (h : execBootWriteDone t s = .next s') : s.Reaches s' := by
  unfold execBootWriteDone at h
  refine State.reaches_done h fun a x port select inside => ?_
  split at select
  case h_1 kind =>
    cases select
    exact .bootFlash a port (by simp [kind, AccessKind.client]) inside
  case h_2 kind =>
    cases select
    exact .bootNext a _ port (by simp [kind, AccessKind.client]) inside rfl
  case h_3 kind =>
    cases select
    exact .bootNext a _ port (by simp [kind, AccessKind.client]) inside rfl
  case h_4 k kind =>
    split at select
    · cases select
      exact .bootNext a _ port (by simp [kind, AccessKind.client]) inside rfl
    · cases select
  case h_5 => cases select

theorem execBootLoadComplete_reaches (h : execBootLoadComplete t s = .next s') : s.Reaches s' := by
  unfold execBootLoadComplete at h
  refine State.reaches_done h fun a x port select inside => ?_
  split at select
  · rename_i k kind
    exact .bootComplete a port (by simp [kind, AccessKind.client]) inside
  · cases select

end

/-! ### Every step -/

/-- What POWER_ON makes of a state. -/
def State.poweredOn (s : State) : State := { State.reset with mem := s.mem, freeIndex := s.freeIndex, pending := s.pending }

/-- Everything a step can do when it answers a next state. -/
theorem exec_cases {i : Instr} {s s' : State} (h : exec i s = .next s') : s' = s.poweredOn ∨ s.Reaches s' := by
  cases i with
  | powerOn => exact .inl (Host.Outcome.next.inj h).symm
  | bootRecordRead t flash => exact .inr (execBootRecordRead_reaches h)
  | bootLoadComplete t => exact .inr (execBootLoadComplete_reaches h)
  | linkUp t => exact .inr (execLinkUp_reaches h)
  | linkDown t => exact .inr (execLinkDown_reaches h)
  | badMessage t => exact .inr (execBadMessage_reaches h)
  | write t addr len data => exact .inr (execWrite_reaches h)
  | read t addr len tag => exact .inr (execRead_reaches h)
  | timeMark t markId consoleTime => exact .inr (execTimeMark_reaches h)
  | requestTake t => exact .inr (execRequestTake_reaches h)
  | inboundWriteDone t => exact .inr (execInboundWriteDone_reaches h)
  | inboundReadDone t => exact .inr (execInboundReadDone_reaches h)
  | upstreamMessageSent t => exact .inr (execUpstreamMessageSent_reaches h)
  | commandProducer t => exact .inr (execCommandProducer_reaches h)
  | noticeConsumer t => exact .inr (execNoticeConsumer_reaches h)
  | poseHold t => exact .inr (execPoseHold_reaches h)
  | playbackProducer t => exact .inr (execPlaybackProducer_reaches h)
  | captureConsumer t => exact .inr (execCaptureConsumer_reaches h)
  | cueRequest t => exact .inr (execCueRequest_reaches h)
  | submitWord t => exact .inr (execSubmitWord_reaches h)
  | commandConsumerWriteDone t => exact .inr (execCommandConsumerWriteDone_reaches h)
  | unknownCommand t => exact .inr (execUnknownCommand_reaches h)
  | applyLayout t => exact .inr (execApplyLayout_reaches h)
  | layoutTableRead t => exact .inr (execLayoutTableRead_reaches h)
  | restart t => exact .inr (execRestart_reaches h)
  | displayStart t => exact .inr (execDisplayStart_reaches h)
  | displayStop t => exact .inr (execDisplayStop_reaches h)
  | setEyeTrim t => exact .inr (execSetEyeTrim_reaches h)
  | motionStart t => exact .inr (execMotionStart_reaches h)
  | motionStop t => exact .inr (execMotionStop_reaches h)
  | setGyroBias t => exact .inr (execSetGyroBias_reaches h)
  | playbackStart t => exact .inr (execPlaybackStart_reaches h)
  | playbackStop t => exact .inr (execPlaybackStop_reaches h)
  | setVolume t => exact .inr (execSetVolume_reaches h)
  | captureStart t => exact .inr (execCaptureStart_reaches h)
  | captureStop t => exact .inr (execCaptureStop_reaches h)
  | copy t => exact .inr (execCopy_reaches h)
  | fill t => exact .inr (execFill_reaches h)
  | abortCopy t => exact .inr (execAbortCopy_reaches h)
  | powerGrant t => exact .inr (execPowerGrant_reaches h)
  | powerCeiling t => exact .inr (execPowerCeiling_reaches h)
  | setAttentionMask t => exact .inr (execSetAttentionMask_reaches h)
  | dataReady t => exact .inr (execDataReady_reaches h)
  | sensorReadDone t reading => exact .inr (execSensorReadDone_reaches h)
  | sensorExchangeDone t => exact .inr (execSensorExchangeDone_reaches h)
  | stallTimerExpiry t => exact .inr (execStallTimerExpiry_reaches h)
  | motionGrant t => exact .inr (execMotionGrant_reaches h)
  | poseRingWritten t => exact .inr (execPoseRingWritten_reaches h)
  | exchangeRecordWriteDone t => exact .inr (execExchangeRecordWriteDone_reaches h)
  | rampTimerExpiry t => exact .inr (execRampTimerExpiry_reaches h)
  | frameBoundary t => exact .inr (execFrameBoundary_reaches h)
  | consoleHalfReadDone t => exact .inr (execConsoleHalfReadDone_reaches h)
  | scanRowDue t => exact .inr (execScanRowDue_reaches h)
  | litIntervalStart t => exact .inr (execLitIntervalStart_reaches h)
  | litIntervalEnd t => exact .inr (execLitIntervalEnd_reaches h)
  | copyGrant t => exact .inr (execCopyGrant_reaches h)
  | copyReadDone t => exact .inr (execCopyReadDone_reaches h)
  | copyWriteDone t => exact .inr (execCopyWriteDone_reaches h)
  | blockBoundary t => exact .inr (execBlockBoundary_reaches h)
  | cueEntryRead t => exact .inr (execCueEntryRead_reaches h)
  | captureRecordWriteDone t => exact .inr (execCaptureRecordWriteDone_reaches h)
  | powerSample t reading => exact .inr (execPowerSample_reaches h)
  | housekeepingGrant t => exact .inr (execHousekeepingGrant_reaches h)
  | noticeEntryWriteDone t => exact .inr (execNoticeEntryWriteDone_reaches h)
  | noticeProducerWriteDone t => exact .inr (execNoticeProducerWriteDone_reaches h)
  | statusTimerExpiry t => exact .inr (execStatusTimerExpiry_reaches h)
  | bootWriteDone t => exact .inr (execBootWriteDone_reaches h)
  | partHalfWriteDone t => exact .inr (execPartHalfWriteDone_reaches h)
  | restartWriteDone t => exact .inr (execRestartWriteDone_reaches h)
  | statusBlockWriteDone t => exact .inr (execStatusBlockWriteDone_reaches h)
  | motionAccessDone t => exact .inr (execMotionAccessDone_reaches h)
  | scanAccessDone t => exact .inr (execScanAccessDone_reaches h)
  | audioGrant t => exact .inr (execAudioGrant_reaches h)
  | audioAccessDone t => exact .inr (execAudioAccessDone_reaches h)
  | codecFrame t mic => exact .inr (execCodecFrame_reaches h)

/-- A property kept by taking a command from the queue, by a grant, by every effect, by the settling and by POWER_ON is kept by every
step. -/
theorem step_keeps {P : State → Prop}
    (queue : ∀ s rest, P s → P { s with pending := rest })
    (grant : ∀ s u, Grant s u → P s → P u)
    (effect : ∀ t s u, Effect t s u → P s → P u)
    (settle : ∀ s, P s → P s.settle)
    (power : ∀ s, P s → P s.poweredOn) {s s' : State} (h : P s) (run : step s = .next s') : P s' := by
  cases pending : s.pending with
  | nil =>
    rw [step_idle s pending] at run
    cases run
    exact h
  | cons i rest =>
    rw [step_cons i rest s pending] at run
    have start : P { s with pending := rest } := queue s rest h
    have ready := State.granted_keeps grant _ start
    rcases exec_cases run with rfl | rfl | rfl | ⟨t, v, u, hv, done, rfl⟩
    · exact power _ start
    · exact start
    · exact ready
    · refine settle _ (effect t v u done ?_)
      rcases hv with rfl | rfl
      · exact start
      · exact ready

end Sys2Proof.Machine
end

section
/-! SUPPORT. Memory (R18): a step changes it only by completing the access at the port, inside DRAM. -/

namespace Sys2Proof.Machine

section
variable (s : State) (t : Time) (a : Access)

@[simp] theorem State.served_now : (s.served t a).now = t := rfl
@[simp] theorem State.served_mem : (s.served t a).mem = a.apply s.mem := rfl
@[simp] theorem State.served_port : (s.served t a).port = none := rfl
@[simp] theorem State.served_tiu : (s.served t a).tiu = s.tiu := rfl
@[simp] theorem State.served_fcu : (s.served t a).fcu = s.fcu := rfl
@[simp] theorem State.served_ssu : (s.served t a).ssu = s.ssu := rfl
@[simp] theorem State.served_mu : (s.served t a).mu = s.mu := rfl
@[simp] theorem State.served_au : (s.served t a).au = s.au := rfl
@[simp] theorem State.served_pu : (s.served t a).pu = s.pu := rfl
@[simp] theorem State.served_ce : (s.served t a).ce = s.ce := rfl
@[simp] theorem State.served_hku : (s.served t a).hku = s.hku := rfl
@[simp] theorem State.served_freeIndex : (s.served t a).freeIndex = s.freeIndex := rfl
@[simp] theorem State.served_pending : (s.served t a).pending = s.pending := rfl

end

/-- Posting a run of notices may change only the HKU. -/
@[simp] theorem State.posts_frame (l : List Notice) (s : State) :
    (l.foldl State.post s).now = s.now ∧ (l.foldl State.post s).mem = s.mem ∧ (l.foldl State.post s).port = s.port ∧
    (l.foldl State.post s).tiu = s.tiu ∧ (l.foldl State.post s).fcu = s.fcu ∧ (l.foldl State.post s).ssu = s.ssu ∧
    (l.foldl State.post s).mu = s.mu ∧ (l.foldl State.post s).au = s.au ∧ (l.foldl State.post s).pu = s.pu ∧
    (l.foldl State.post s).ce = s.ce ∧ (l.foldl State.post s).freeIndex = s.freeIndex ∧
    (l.foldl State.post s).pending = s.pending := by
  induction l generalizing s with
  | nil => simp
  | cons n rest ih => simp [ih]

/-- Taking the head of the queue may change only the tether. -/
@[simp] theorem State.headTaken_frame (s : State) (t : Time) (rest : List Request) :
    (s.headTaken t rest).mem = s.mem ∧ (s.headTaken t rest).port = s.port ∧ (s.headTaken t rest).fcu = s.fcu ∧
    (s.headTaken t rest).ssu = s.ssu ∧ (s.headTaken t rest).mu = s.mu ∧ (s.headTaken t rest).au = s.au ∧
    (s.headTaken t rest).pu = s.pu ∧ (s.headTaken t rest).ce = s.ce ∧ (s.headTaken t rest).hku = s.hku :=
  ⟨rfl, rfl, rfl, rfl, rfl, rfl, rfl, rfl, rfl⟩

theorem Grant.mem {s u : State} (g : Grant s u) : u.mem = s.mem := by
  cases g with
  | audio | copy => rfl
  | motion => simp
  | housekeeping => simp

/-- The effect of a step leaves memory alone, or is that of the access at the port. -/
theorem Effect.mem {t : Time} {s u : State} (e : Effect t s u) :
    u.mem = s.mem ∨ ∃ a, s.port = some a ∧ a.stop ≤ Config.dramSize ∧ u.mem = a.apply s.mem := by
  cases e with
  | granted u g => exact .inl g.mem
  | inboundWriteDone a _ _ port _ inside | inboundReadDone a _ port _ inside | tableRead a _ port _ inside
  | halvesDone a _ port _ inside | halfDone a _ _ port _ inside | restartDone a port _ inside | restartStep a _ port _ inside
  | ringWritten a _ port _ _ inside | exchangeWritten a _ _ port _ _ inside | recordWritten a port _ _ inside
  | consoleHalfRead a _ _ port _ inside | pixelsRead a _ _ port _ inside | segmentHeld a _ port _ inside
  | readAborts a _ _ port _ inside | segmentWritten a _ _ _ port _ inside | cueRefused a _ _ _ _ port _ inside
  | cueStarts a _ _ _ _ port _ inside | captureWritten a _ _ port _ inside | audioRead a _ _ port _ inside
  | noticeWritten a _ _ port _ inside | noticesShown a _ port _ inside | bootFlash a port _ inside
  | bootNext a _ port _ inside | bootComplete a port _ inside | completes a port _ inside =>
    exact .inr ⟨a, port, inside, by simp⟩
  | _ => exact .inl (by simp)

theorem Grant.keeps_memoryOk {s u : State} (g : Grant s u) (h : s.memoryOk) : u.memoryOk := by
  rw [State.memoryOk, g.mem]
  exact h

theorem Effect.keeps_memoryOk {t : Time} {s u : State} (e : Effect t s u) (h : s.memoryOk) : u.memoryOk := by
  rcases e.mem with same | ⟨a, _, inside, applied⟩
  · rw [State.memoryOk, same]
    exact h
  · rw [State.memoryOk, applied]
    exact a.wf_apply s.mem inside h

/-- A step changes memory only as the completion of the access at the port does, the grants due being made. -/
theorem exec_mem {i : Instr} {s s' : State} (h : exec i s = .next s') :
    s'.mem = s.mem ∨ ∃ a, s.granted.port = some a ∧ s'.mem = a.apply s.mem := by
  rcases exec_cases h with rfl | rfl | rfl | ⟨t, v, u, hv, e, rfl⟩
  · exact .inl rfl
  · exact .inl rfl
  · exact .inl s.granted_mem
  · rw [State.settle_mem]
    rcases hv with rfl | rfl <;> rcases e.mem with same | ⟨a, port, _, applied⟩
    · exact .inl same
    · exact .inr ⟨a, (State.granted_busy _ a port).symm ▸ port, applied⟩
    · exact .inl (same.trans s.granted_mem)
    · exact .inr ⟨a, port, by rw [applied, s.granted_mem]⟩

/-! ### The one fault (00_scope section 4) -/

/-- How a step stops, if it does: with the fault of the access at the port, the grants due being made, that leaves DRAM. -/
def State.StopsOutside (s : State) (o : Res) : Prop :=
  (∀ r, o ≠ .refused r) ∧ ∀ f, o = .fault f →
    ∃ a, s.granted.port = some a ∧ f = .outsideDram a.addr ∧ Config.dramSize < a.stop

theorem State.stopsOutside_next (s s' : State) : s.StopsOutside (.next s') :=
  ⟨(by rintro _ ⟨⟩), (by rintro _ ⟨⟩)⟩

theorem State.stopsOutside_fire (s v : State) (t : Time) (c : Bool) (f : State → State) : s.StopsOutside (v.fire t c f) :=
  s.stopsOutside_next _

theorem State.stopsOutside_portDone {α : Type} (s : State) (t : Time) (select : AccessKind → Option α)
    (k : α → Bool → List Byte → State → State) : s.StopsOutside (s.portDone t select k) := by
  unfold State.portDone
  dsimp only
  split
  · exact s.stopsOutside_next _
  · rename_i a port
    split
    · exact s.stopsOutside_next _
    · split
      · exact s.stopsOutside_next _
      · rename_i outside
        refine ⟨(by rintro _ ⟨⟩), fun f h => ⟨a, port, ?_, Nat.lt_of_not_le outside⟩⟩
        exact (Host.Outcome.fault.inj h).symm

theorem State.stopsOutside_takeRecord (s : State) (t : Time) (isCode : Half → Bool) (k : Record → State → State) :
    s.StopsOutside (s.takeRecord t isCode k) := by
  unfold State.takeRecord
  dsimp only
  split
  · split
    · exact s.stopsOutside_fire _ _ _ _
    · exact s.stopsOutside_next _
  all_goals exact s.stopsOutside_next _

theorem State.stopsOutside_takeEvent {α : Type} (s : State) (t : Time) (select : Watched → Option α)
    (k : α → Word → State → State) : s.StopsOutside (s.takeEvent t select k) := by
  unfold State.takeEvent
  split
  · split
    · exact s.stopsOutside_fire _ _ _ _
    · exact s.stopsOutside_next _
  all_goals exact s.stopsOutside_next _

/-- Every step stops only so: by what it is made of, a condition, a completion, a taking or an event. -/
theorem exec_stopsOutside (i : Instr) (s : State) : s.StopsOutside (exec i s) := by
  cases i with
  | inboundWriteDone | inboundReadDone | commandConsumerWriteDone | layoutTableRead | partHalfWriteDone | restartWriteDone
  | poseRingWritten | exchangeRecordWriteDone | motionAccessDone | consoleHalfReadDone | scanAccessDone | copyReadDone
  | copyWriteDone | cueEntryRead | captureRecordWriteDone | audioAccessDone | noticeEntryWriteDone
  | noticeProducerWriteDone | statusBlockWriteDone | bootWriteDone | bootLoadComplete =>
    dsimp only [exec]
    exact s.stopsOutside_portDone _ _ _
  | commandProducer | noticeConsumer | poseHold | playbackProducer | captureConsumer | cueRequest | submitWord =>
    dsimp only [exec]
    exact s.stopsOutside_takeEvent _ _ _
  | unknownCommand | applyLayout | restart | displayStart | displayStop | setEyeTrim | motionStart | motionStop
  | setGyroBias | playbackStart | playbackStop | setVolume | captureStart | captureStop | copy | fill | abortCopy
  | powerGrant | powerCeiling | setAttentionMask =>
    dsimp only [exec]
    exact s.stopsOutside_takeRecord _ _ _
  | powerOn => exact s.stopsOutside_next _
  | requestTake t =>
    simp only [exec, execRequestTake]
    split
    · exact s.stopsOutside_next _
    · exact s.stopsOutside_fire _ _ _ _
  | sensorReadDone t =>
    simp only [exec, execSensorReadDone]
    split
    · exact s.stopsOutside_fire _ _ _ _
    all_goals exact s.stopsOutside_next _
  | sensorExchangeDone t =>
    simp only [exec, execSensorExchangeDone]
    split
    · exact s.stopsOutside_fire _ _ _ _
    · exact s.stopsOutside_next _
  | stallTimerExpiry t =>
    simp only [exec, execStallTimerExpiry]
    split
    · exact s.stopsOutside_fire _ _ _ _
    · exact s.stopsOutside_next _
  | motionGrant t =>
    simp only [exec, execMotionGrant]
    split
    · exact s.stopsOutside_fire _ _ _ _
    · exact s.stopsOutside_next _
  | housekeepingGrant t =>
    simp only [exec, execHousekeepingGrant]
    split
    · exact s.stopsOutside_fire _ _ _ _
    · exact s.stopsOutside_next _
  | codecFrame t =>
    simp only [exec, execCodecFrame]
    split <;> exact s.stopsOutside_fire _ _ _ _
  | _ =>
    dsimp only [exec]
    exact s.stopsOutside_next _

end Sys2Proof.Machine

open Sys2Proof Sys2Proof.Machine

/-- Settles O50: an effect leaves memory alone or writes inside DRAM. -/
theorem memoryCanonicalKept : Obligations.MemoryCanonicalKept := by
  unfold Obligations.MemoryCanonicalKept
  intro s s' h run
  refine step_keeps (fun _ _ h => h) (fun _ _ g h => g.keeps_memoryOk h) (fun _ _ _ e h => e.keeps_memoryOk h)
    (fun v h => ?_) (fun _ h => h) h run
  rw [State.memoryOk, v.settle_mem]
  exact h

/-- Settles O49: what a step makes of memory is what the access at the port makes of it, which is local to its span. -/
theorem memoryChangesByAccess : Obligations.MemoryChangesByAccess := by
  unfold Obligations.MemoryChangesByAccess
  intro i s s' h
  refine (exec_mem h).imp_right fun ⟨a, port, applied⟩ => ⟨a, port, applied, fun c outside => ?_⟩
  rw [applied]
  exact a.read_apply_outside s.mem c outside

/-- Settles O57: a step stops only where a completion finds its access leaving DRAM. -/
theorem onlyOutsideDramStops : Obligations.OnlyOutsideDramStops := by
  unfold Obligations.OnlyOutsideDramStops
  intro i s
  exact exec_stopsOutside i s

end

section
/-! SUPPORT. The power invariant (R131, R158 to R165) at every step. -/

namespace Sys2Proof.Machine

@[simp] theorem State.setLevel_pu (s : State) (l : Fin 8) : (s.setLevel l).pu = { s.pu with level := l } := rfl

@[simp] theorem State.setLevel_ce (s : State) (l : Fin 8) :
    (s.setLevel l).ce = { s.ce with paused := decide (l.val < 2) } := rfl

/-! ### RESTART, block by block (R42 to R46) -/

section
variable (s : State) (r : Record)

@[simp] theorem State.restart_fcu : (s.restart r).fcu = s.fcu.restarted := by simp [State.restart]
@[simp] theorem State.restart_ssu : (s.restart r).ssu = s.ssu.restarted s.hku.settings := by simp [State.restart]
@[simp] theorem State.restart_mu : (s.restart r).mu = s.mu.restarted s.hku.settings := by simp [State.restart]
@[simp] theorem State.restart_au : (s.restart r).au = s.au.restarted := by simp [State.restart]
@[simp] theorem State.restart_pu : (s.restart r).pu = { s.pu.restarted with level := s.pu.ceiling } := by
  simp [State.restart]
@[simp] theorem State.restart_ce : (s.restart r).ce = ⟨[], .none, decide (s.pu.ceiling.val < 2)⟩ := by
  simp [State.restart]
@[simp] theorem State.restart_hku : (s.restart r).hku =
    (s.hku.restarted s.now s.fcu.display).post s.now (.restarted s.hku.consumer r.tag) := by
  simp [State.restart]

end

/-! ### The PU at the display's start and boundaries (R89, R93) -/

@[simp] theorem State.startDisplay_pu (s : State) (r : Record) : (s.startDisplay r).pu = { s.pu with rail := true } := rfl

@[simp] theorem State.stopBoundary_pu (s : State) : s.stopBoundary.pu = { s.pu with rail := false } := by
  simp [State.stopBoundary]

/-- A boundary changes at most the panel rail of the PU. -/
theorem State.boundary_pu (s : State) : s.boundary.pu = s.pu ∨ s.boundary.pu = { s.pu with rail := false } := by
  unfold State.boundary
  split
  · exact .inr s.stopBoundary_pu
  · refine .inl ?_
    dsimp only
    split
    · simp
    · split <;> simp
    · simp

/-! ### The invariant -/

/-- The invariant depends on the PU's level and counts and on the paused flag. -/
theorem State.PowerOk.of_eq {s u : State} (h : s.PowerOk) (level : u.pu.level = s.pu.level)
    (ceiling : u.pu.ceiling = s.pu.ceiling) (hold : u.pu.hold = s.pu.hold) (overs : u.pu.overCount = s.pu.overCount)
    (unders : u.pu.underCount = s.pu.underCount) (samples : u.pu.sampleCount = s.pu.sampleCount)
    (paused : u.ce.paused = s.ce.paused) : u.PowerOk where
  level := level ▸ ceiling ▸ h.level
  paused := paused ▸ level ▸ h.paused
  hold := hold ▸ h.hold
  overWindows := overs ▸ h.overWindows
  underWindows := unders ▸ h.underWindows
  samples := samples ▸ h.samples

/-- The invariant where the level is set last: the paused flag follows it. -/
theorem State.PowerOk.set {s : State} {level : Fin 8} (ceiling : level ≤ s.pu.ceiling) (hold : s.pu.hold ≤ 64)
    (overs : s.pu.overCount < 2) (unders : s.pu.underCount ≤ 8) (samples : s.pu.sampleCount < 16) :
    (s.setLevel level).PowerOk :=
  ⟨ceiling, rfl, hold, overs, unders, samples⟩

@[simp] theorem State.queueJob_paused (s : State) (j : Job) : (s.queueJob j).ce.paused = s.ce.paused := rfl

@[simp] theorem State.closeJob_paused (s : State) (j : Job) (o : JobOutcome) (n : Nat) :
    (s.closeJob j o n).ce.paused = s.ce.paused := by simp

@[simp] theorem State.endRunning_paused (s : State) (j : Job) (o : JobOutcome) (n : Nat) :
    (s.endRunning j o n).ce.paused = s.ce.paused := by simp [State.endRunning]

@[simp] theorem State.abortJob_paused (s : State) (i : Nat) (j : Job) : (s.abortJob i j).ce.paused = s.ce.paused := by
  unfold State.abortJob
  split
  · simp
  · split <;> simp

@[simp] theorem State.copyWritten_paused (s : State) (j : Job) (n : Nat) : (s.copyWritten j n).ce.paused = s.ce.paused := by
  unfold State.copyWritten
  dsimp only
  split
  · simp
  · split <;> simp

/-! ### The operations of the PU -/

theorem State.PowerOk.takeCeiling {s : State} (h : s.PowerOk) (c : Fin 8) : (s.takeCeiling c).PowerOk := by
  unfold State.takeCeiling
  dsimp only
  split
  · exact (State.PowerOk.set (s := { s with pu := { s.pu with ceiling := c, overCount := 0, underCount := 0 } }) (le_refl c)
      h.hold Nat.two_pos (Nat.zero_le _) h.samples).of_eq rfl rfl rfl rfl rfl rfl rfl
  · exact { h with level := Fin.not_lt.mp ‹_› }

theorem State.PowerOk.testVoltage {s : State} (h : s.PowerOk) (v i : Nat) : (s.testVoltage v i).PowerOk := by
  unfold State.testVoltage
  split
  · dsimp only
    split <;> exact State.PowerOk.set (Fin.zero_le _) (le_refl 64) Nat.two_pos (Nat.zero_le _) h.samples
  · exact { h with hold := (Nat.sub_le _ _).trans h.hold }

/-- A step of the level to one under the ceiling. -/
theorem State.PowerOk.stepLevel {s : State} (h : s.PowerOk) {level : Fin 8} (ceiling : level ≤ s.pu.ceiling)
    (cause : LevelCause) : (s.stepLevel level cause).PowerOk :=
  (State.PowerOk.set (s := { s with pu := { s.pu with overCount := 0, underCount := 0 } }) ceiling h.hold Nat.two_pos
    (Nat.zero_le _) h.samples).of_eq rfl rfl rfl rfl rfl rfl rfl

theorem State.PowerOk.overWindow {s : State} (h : s.PowerOk) : s.overWindow.PowerOk := by
  unfold State.overWindow
  split
  · exact { h with overWindows := ‹_›, underWindows := Nat.zero_le _ }
  · split
    · exact { h with overWindows := Nat.two_pos, underWindows := Nat.zero_le _ }
    · rename_i nonzero
      refine h.stepLevel (le_trans ?_ h.level) _
      have pos : s.pu.level.val ≠ 0 := fun e => nonzero (Fin.ext e)
      rw [Fin.le_def, Fin.sub_def]
      simp only [Fin.val_one]
      omega

theorem State.PowerOk.underWindow {s : State} (h : s.PowerOk) : s.underWindow.PowerOk := by
  unfold State.underWindow
  dsimp only
  split
  · rename_i rises
    refine h.stepLevel ?_ _
    have below := Fin.lt_def.mp rises.2.1
    have top := s.pu.ceiling.isLt
    rw [Fin.le_def, Fin.add_def]
    simp only [Fin.val_one]
    omega
  · exact { h with overWindows := Nat.two_pos, underWindows := Nat.min_le_left _ _ }

/-- The end of a window, from a state that is in range but for the sample count. -/
theorem State.PowerOk.endWindow {s : State} (h : { s with pu.sampleCount := 0 }.PowerOk) : s.endWindow.PowerOk := by
  have zeroed : State.PowerOk { s with pu := { s.pu with
      grant := s.pu.requested.getD s.pu.grant, requested := none, lastAverage := s.pu.accumulator / 16,
      accumulator := 0, sampleCount := 0 } } := h.of_eq rfl rfl rfl rfl rfl rfl rfl
  unfold State.endWindow
  dsimp only
  split
  · exact zeroed.overWindow
  · split
    · exact zeroed.underWindow
    · exact { zeroed with overWindows := Nat.two_pos, underWindows := Nat.zero_le _ }

theorem State.PowerOk.takeSample {s : State} (h : s.PowerOk) (r : MonitorReading) : (s.takeSample r).PowerOk := by
  have tested := h.testVoltage (min r.milliVolts 24000) (min r.milliAmps 8000)
  unfold State.takeSample
  dsimp only
  split
  · exact State.PowerOk.endWindow { tested with samples := (by decide : 0 < 16) }
  · rename_i more
    exact { tested with samples := Nat.lt_of_le_of_ne tested.samples more }

theorem State.PowerOk.boundary {s : State} (h : s.PowerOk) : s.boundary.PowerOk := by
  rcases s.boundary_pu with e | e <;> exact h.of_eq (by simp [e]) (by simp [e]) (by simp [e]) (by simp [e]) (by simp [e])
    (by simp [e]) (by simp)

/-! ### Every step -/

theorem Grant.keeps_powerOk {s u : State} (g : Grant s u) (h : s.PowerOk) : u.PowerOk := by
  cases g with
  | audio | copy => exact h.of_eq rfl rfl rfl rfl rfl rfl rfl
  | motion => exact h.of_eq (by simp) (by simp) (by simp) (by simp) (by simp) (by simp) (by simp)
  | housekeeping => exact h.of_eq (by simp) (by simp) (by simp) (by simp) (by simp) (by simp) (by simp)

theorem Effect.keeps_powerOk {t : Time} {s u : State} (e : Effect t s u) (h : s.PowerOk) : u.PowerOk := by
  cases e with
  | granted u g => exact g.keeps_powerOk (h.of_eq rfl rfl rfl rfl rfl rfl rfl)
  | restart r taking =>
    exact (State.PowerOk.set (s := { s with pu := s.pu.restarted }) (le_refl s.pu.ceiling) (Nat.zero_le 64) Nat.two_pos
      (Nat.zero_le 8) (by decide : 0 < 16)).of_eq (by simp) (by simp) (by simp) (by simp) (by simp) (by simp) (by simp)
  | rampEnds | frameBoundary => exact State.PowerOk.boundary (h.of_eq rfl rfl rfl rfl rfl rfl rfl)
  | powerCeiling r c =>
    exact ((h.of_eq rfl rfl rfl rfl rfl rfl rfl : ({ s with now := t } : State).PowerOk).takeCeiling c).of_eq
      (by simp) (by simp) (by simp) (by simp) (by simp) (by simp) (by simp)
  | powerSample r =>
    exact (h.of_eq rfl rfl rfl rfl rfl rfl rfl :
      ({ s with now := t, pu.nextSample := some (t + Config.millisecond) } : State).PowerOk).takeSample r
  | _ => exact h.of_eq (by simp) (by simp) (by simp) (by simp) (by simp) (by simp) (by simp)

end Sys2Proof.Machine

open Sys2Proof Sys2Proof.Machine

/-- Settles O52: the PU's operations keep the counts in range and set the paused flag with the level; the other effects leave both
alone. -/
theorem powerKept : Obligations.PowerKept := by
  unfold Obligations.PowerKept
  intro s s' h run
  refine step_keeps (fun _ _ h => h.of_eq rfl rfl rfl rfl rfl rfl rfl) (fun _ _ g h => g.keeps_powerOk h)
    (fun _ _ _ e h => e.keeps_powerOk h) (fun v h => ?_) (fun v _ => ?_) h run
  · exact h.of_eq (by simp) (by simp) (by simp) (by simp) (by simp) (by simp) (by simp)
  · exact (show State.reset.PowerOk from ⟨by decide, by decide, by decide, by decide, by decide, by decide⟩).of_eq
      rfl rfl rfl rfl rfl rfl rfl

end

section
/-! SUPPORT. The operations of the tether and of the MU, field by field: what each makes of the queue, the upstream order, the tags
and the flow state, and of motion, publication and the sensor port. -/

namespace Sys2Proof.Machine

/-! ### The tether -/

section
variable (u : Tiu)

@[simp] theorem Tiu.sendFlow_frame (m : FlowMessage) (f : FlowState) :
    (u.sendFlow m f).link = u.link ∧ (u.sendFlow m f).flow = f ∧ (u.sendFlow m f).queue = u.queue ∧
    (u.sendFlow m f).service = u.service ∧ (u.sendFlow m f).tags = u.tags ∧ (u.sendFlow m f).order = u.order :=
  ⟨rfl, rfl, rfl, rfl, rfl, rfl⟩

@[simp] theorem Tiu.setTag_frame (tag : Fin 32) (x : TagState) :
    (u.setTag tag x).link = u.link ∧ (u.setTag tag x).flow = u.flow ∧ (u.setTag tag x).queue = u.queue ∧
    (u.setTag tag x).service = u.service ∧ (u.setTag tag x).order = u.order ∧ (u.setTag tag x).flowOut = u.flowOut ∧
    (u.setTag tag x).sending = u.sending := ⟨rfl, rfl, rfl, rfl, rfl, rfl, rfl⟩

/-- Freeing a run of tags changes the tags alone. -/
@[simp] theorem Tiu.setTags_frame (tags : List (Fin 32)) (x : TagState) :
    (tags.foldl (fun u tag => u.setTag tag x) u).link = u.link ∧ (tags.foldl (fun u tag => u.setTag tag x) u).flow = u.flow ∧
    (tags.foldl (fun u tag => u.setTag tag x) u).queue = u.queue ∧
    (tags.foldl (fun u tag => u.setTag tag x) u).service = u.service ∧
    (tags.foldl (fun u tag => u.setTag tag x) u).order = u.order ∧
    (tags.foldl (fun u tag => u.setTag tag x) u).flowOut = u.flowOut ∧
    (tags.foldl (fun u tag => u.setTag tag x) u).sending = u.sending := by
  induction tags generalizing u with
  | nil => simp
  | cons tag rest ih => simp [ih]

@[simp] theorem Tiu.refuse_frame (tag : Fin 32) (o : ReadOutcome) :
    (u.refuse tag o).link = u.link ∧ (u.refuse tag o).flow = u.flow ∧ (u.refuse tag o).queue = u.queue ∧
    (u.refuse tag o).service = u.service ∧ (u.refuse tag o).tags = u.tags := by
  unfold Tiu.refuse; split <;> simp

@[simp] theorem Tiu.attend_frame (position kind : Nat) :
    (u.attend position kind).link = u.link ∧ (u.attend position kind).flow = u.flow ∧
    (u.attend position kind).queue = u.queue ∧ (u.attend position kind).service = u.service ∧
    (u.attend position kind).tags = u.tags := by
  unfold Tiu.attend; split <;> simp

@[simp] theorem Tiu.announce_frame (mask : Word) (shown : Nat × Nat) :
    (u.announce mask shown).link = u.link ∧ (u.announce mask shown).flow = u.flow ∧
    (u.announce mask shown).queue = u.queue ∧ (u.announce mask shown).service = u.service ∧
    (u.announce mask shown).tags = u.tags := by
  unfold Tiu.announce; split <;> simp

@[simp] theorem Tiu.announces_frame (mask : Word) (shown : List (Nat × Nat)) :
    (shown.foldl (fun u p => u.announce mask p) u).link = u.link ∧
    (shown.foldl (fun u p => u.announce mask p) u).flow = u.flow ∧
    (shown.foldl (fun u p => u.announce mask p) u).queue = u.queue ∧
    (shown.foldl (fun u p => u.announce mask p) u).service = u.service ∧
    (shown.foldl (fun u p => u.announce mask p) u).tags = u.tags := by
  induction shown generalizing u with
  | nil => simp
  | cons p rest ih => simp [ih]

@[simp] theorem Tiu.join_frame (r : Request) :
    (u.join r).link = u.link ∧ (u.join r).queue = u.queue ++ [r] ∧ (u.join r).service = u.service ∧
    (u.join r).tags = u.tags ∧ (u.join r).order = u.order := by
  unfold Tiu.join; dsimp only; split <;> simp

@[simp] theorem Tiu.startSending_frame :
    u.startSending.link = u.link ∧ u.startSending.flow = u.flow ∧ u.startSending.queue = u.queue ∧
    u.startSending.service = u.service ∧ u.startSending.tags = u.tags ∧ u.startSending.order = u.order ∧
    u.startSending.flowOut = u.flowOut := by
  rw [Tiu.startSending_eq]; simp

end

section
variable (s : State)

@[simp] theorem State.settle_tiu_frame :
    s.settle.tiu.link = s.tiu.link ∧ s.settle.tiu.flow = s.tiu.flow ∧ s.settle.tiu.queue = s.tiu.queue ∧
    s.settle.tiu.tags = s.tiu.tags ∧ s.settle.tiu.order = s.tiu.order ∧ s.settle.tiu.flowOut = s.tiu.flowOut := by
  rw [State.settle_tiu]; simp

@[simp] theorem State.takeWrite_tiu_frame (addr : Word) (len : Nat) (data : List Byte) :
    (s.takeWrite addr len data).tiu.link = s.tiu.link ∧ (s.takeWrite addr len data).tiu.flow = s.tiu.flow ∧
    (s.takeWrite addr len data).tiu.queue = s.tiu.queue ∧ (s.takeWrite addr len data).tiu.tags = s.tiu.tags ∧
    (s.takeWrite addr len data).tiu.order = s.tiu.order := by
  unfold State.takeWrite; dsimp only; split <;> simp

@[simp] theorem State.showNotices_tiu_frame (w : Word) :
    (s.showNotices w).tiu.link = s.tiu.link ∧ (s.showNotices w).tiu.flow = s.tiu.flow ∧
    (s.showNotices w).tiu.queue = s.tiu.queue ∧ (s.showNotices w).tiu.service = s.tiu.service ∧
    (s.showNotices w).tiu.tags = s.tiu.tags := by
  simp [State.showNotices]

@[simp] theorem State.headTaken_tiu_frame (t : Time) (rest : List Request) :
    (s.headTaken t rest).tiu.link = s.tiu.link ∧ (s.headTaken t rest).tiu.queue = rest ∧
    (s.headTaken t rest).tiu.service = s.tiu.service ∧ (s.headTaken t rest).tiu.tags = s.tiu.tags ∧
    (s.headTaken t rest).tiu.order = s.tiu.order := by
  rw [State.headTaken_eq]; simp

/-- What the arrival of a WRITE makes of the tether: nothing, or the request joins a queue with room. -/
theorem State.arriveWrite_tiu (addr : Word) (len : Nat) (data : List Byte) :
    (s.arriveWrite addr len data).tiu = s.tiu ∨ (s.tiu.queue.length < Config.queueLimit ∧
      (s.arriveWrite addr len data).tiu = s.tiu.join (.write addr len data)) := by
  unfold State.arriveWrite
  split
  · exact .inl rfl
  · split
    · exact .inl rfl
    · exact .inr ⟨Nat.lt_of_not_le ‹_›, rfl⟩

/-- What the arrival of a READ makes of the tether: a refusal, or a request with its tag in a queue with room. -/
theorem State.arriveRead_tiu (addr : Word) (len : Nat) (tag : Fin 32) :
    (∃ o, o ≠ .ok ∧ (s.arriveRead addr len tag).tiu = s.tiu.refuse tag o) ∨
    (s.tiu.tags[tag] ≠ .outstanding ∧ s.tiu.queue.length < Config.queueLimit ∧
      (s.arriveRead addr len tag).tiu = (s.tiu.setTag tag .outstanding).join (.read addr len tag)) := by
  unfold State.arriveRead
  split
  · exact .inl ⟨.outOfRange, ReadOutcome.noConfusion, rfl⟩
  · split
    · exact .inl ⟨.tagInUse, ReadOutcome.noConfusion, rfl⟩
    · split
      · exact .inl ⟨.refusedFull, ReadOutcome.noConfusion, rfl⟩
      · exact .inr ⟨‹_›, Nat.lt_of_not_le ‹_›, rfl⟩

end

/-! ### The MU -/

section
variable (m : Mu)

@[simp] theorem Mu.nextExchange_frame :
    m.nextExchange.motion = m.motion ∧ m.nextExchange.angles = m.angles ∧ m.nextExchange.remainders = m.remainders ∧
    m.nextExchange.rates = m.rates ∧ m.nextExchange.accel = m.accel ∧ m.nextExchange.lastTime = m.lastTime ∧
    m.nextExchange.bias = m.bias ∧ m.nextExchange.commanded = m.commanded ∧ m.nextExchange.inUse = m.inUse ∧
    m.nextExchange.former = m.former ∧ m.nextExchange.rateChanged = m.rateChanged ∧
    m.nextExchange.decimation = m.decimation ∧ m.nextExchange.samples = m.samples ∧ m.nextExchange.first = m.first ∧
    m.nextExchange.gathered = m.gathered ∧ m.nextExchange.stall = m.stall ∧ m.nextExchange.pub = m.pub := by
  unfold Mu.nextExchange
  split
  · simp
  · split
    · simp
    · split
      · simp
      · split <;> simp

@[simp] theorem Mu.beginStop_frame : m.beginStop.motion = m.motion ∧ m.beginStop.pub = m.pub := by simp [Mu.beginStop]

@[simp] theorem Mu.beginConfig_frame : m.beginConfig.motion = m.motion ∧ m.beginConfig.pub = m.pub := by simp [Mu.beginConfig]

@[simp] theorem Mu.beginRate_frame (r : Rate) : (m.beginRate r).motion = m.motion ∧ (m.beginRate r).pub = m.pub := by
  simp [Mu.beginRate]

@[simp] theorem Mu.pendReady_frame (t : Time) : (m.pendReady t).motion = m.motion ∧ (m.pendReady t).pub = m.pub := by
  simp [Mu.pendReady]

@[simp] theorem Mu.started_frame (now : Time) (d : Nat) (c cap : Rate) :
    (m.started now d c cap).motion = .running ∧ (m.started now d c cap).pub = m.pub.started := by simp [Mu.started]

@[simp] theorem Mu.stopped_frame : m.stopped.motion = .off ∧ m.stopped.pub = m.pub.stopped := by simp [Mu.stopped]

@[simp] theorem Mu.restarted_frame (c : Settings) : (m.restarted c).motion = .off ∧ (m.restarted c).pub = m.pub.restarted := by
  unfold Mu.restarted; dsimp only; split <;> simp

@[simp] theorem Mu.takeHold_frame (v : Word) :
    (m.takeHold v).motion = m.motion ∧ (m.takeHold v).sensor = m.sensor ∧ (m.takeHold v).pub.list = m.pub.list ∧
    (m.takeHold v).pub.history = m.pub.history ∧ (m.takeHold v).pub.nextSeq = m.pub.nextSeq ∧
    (m.takeHold v).pub.headGranted = m.pub.headGranted ∧ (m.takeHold v).pub.headWritten = m.pub.headWritten := by
  unfold Mu.takeHold; dsimp only
  split
  · simp
  · split <;> simp

@[simp] theorem Mu.integrate_frame (map : Axes AxisSource) (reading : SensorReading) (time : Time) :
    (m.integrate map reading time).motion = .running ∧ (m.integrate map reading time).pub = m.pub ∧
    (m.integrate map reading time).sensor = m.sensor := by simp [Mu.integrate]

@[simp] theorem Mu.publish_motion : m.publish.motion = m.motion := by unfold Mu.publish; split <;> simp

@[simp] theorem Mu.publish_sensor : m.publish.sensor = m.sensor := by unfold Mu.publish; split <;> simp

@[simp] theorem Mu.reviewRate_frame (cap : Rate) :
    (m.reviewRate cap).motion = m.motion ∧ (m.reviewRate cap).pub = m.pub := by
  unfold Mu.reviewRate; dsimp only; split <;> simp

/-- What a sample makes of publication: nothing, or a record joins the list and the next sequence follows. -/
theorem Mu.publish_pub : m.publish.pub = m.pub ∨ ∃ q r, m.pub.nextSeq = some q ∧ r.sequence = q ∧
    m.publish.pub = { m.pub.append r with nextSeq := nextSequence q } := by
  unfold Mu.publish
  split
  · dsimp only
    split
    · exact .inr ⟨_, m.poseRecord _, ‹_›, rfl, rfl⟩
    · exact .inl rfl
  · exact .inl rfl

@[simp] theorem State.takeReading_motion (s : State) (reading : SensorReading) (time : Time) :
    (s.takeReading reading time).mu.motion = .running := by
  simp [State.takeReading]

/-- What a sample taken makes of publication: nothing, or a record joins the list and the next sequence follows. -/
theorem State.takeReading_pub (s : State) (reading : SensorReading) (time : Time) :
    (s.takeReading reading time).mu.pub = s.mu.pub ∨ ∃ q r, s.mu.pub.nextSeq = some q ∧ r.sequence = q ∧
      (s.takeReading reading time).mu.pub = { s.mu.pub.append r with nextSeq := nextSequence q } := by
  have published := (s.mu.integrate s.hku.settings.axisMap reading time).publish_pub
  have same : (s.takeReading reading time).mu.pub = (s.mu.integrate s.hku.settings.axisMap reading time).publish.pub := by
    simp [State.takeReading]
  rw [same]
  simpa using published

@[simp] theorem Publication.append_frame (p : Publication) (r : PoseRecord) :
    (p.append r).history = p.history ∧ (p.append r).headGranted = p.headGranted ∧
    (p.append r).headWritten = p.headWritten ∧ (p.append r).nextSeq = p.nextSeq := by simp [Publication.append]

end

/-! ### The publication state behind a motion grant -/

section
variable (s : State) (w : MotionWork)

@[simp] theorem State.grantMotion_mu_frame :
    (s.grantMotion w).mu.motion = s.mu.motion ∧ (s.grantMotion w).mu.sensor = s.mu.sensor ∧
    (s.grantMotion w).mu.pub.list = s.mu.pub.list ∧ (s.grantMotion w).mu.pub.history = s.mu.pub.history ∧
    (s.grantMotion w).mu.pub.nextSeq = s.mu.pub.nextSeq ∧
    (s.grantMotion w).mu.pub.headWritten = s.mu.pub.headWritten := by
  cases w <;> simp [State.grantMotion]

end

end Sys2Proof.Machine
end

section
/-! SUPPORT. Flow control (R11 to R14, R17) and the room of every queue and list (R6, R16, R66, R70, R126, R169) at every step. -/

namespace Sys2Proof.Machine

/-! ### Flow control -/

/-- The flow invariant, of the TIU alone. -/
structure Tiu.FlowOk (u : Tiu) : Prop where
  down : u.link = .down → u.flow = .running
  held : u.link = .up → Config.holdCount ≤ u.queue.length → u.flow = .held

theorem State.flowOk_iff (s : State) : s.FlowOk ↔ s.tiu.FlowOk := ⟨fun h => ⟨h.down, h.held⟩, fun h => ⟨h.down, h.held⟩⟩

theorem Tiu.FlowOk.of_eq {u v : Tiu} (h : u.FlowOk) (link : v.link = u.link) (flow : v.flow = u.flow)
    (queue : v.queue = u.queue) : v.FlowOk where
  down := link ▸ flow ▸ h.down
  held := link ▸ flow ▸ queue ▸ h.held

theorem FlowState.eq_held_of_ne {f : FlowState} (h : f ≠ .running) : f = .held := by
  cases f
  · exact absurd rfl h
  · rfl

/-- A request joins on an UP link: the count that becomes 48 makes the state HELD. -/
theorem Tiu.FlowOk.join {u : Tiu} (h : u.FlowOk) (up : u.link = .up) (r : Request) : (u.join r).FlowOk := by
  refine ⟨fun down => absurd (up.symm.trans ((u.join_frame r).1.symm.trans down)) (by decide), fun _ full => ?_⟩
  rw [(u.join_frame r).2.1, List.length_append, List.length_singleton] at full
  unfold Tiu.join
  dsimp only
  split
  · rfl
  · rename_i quiet
    simp only [List.length_append, List.length_singleton] at quiet
    by_cases reached : u.queue.length + 1 = Config.holdCount
    · exact FlowState.eq_held_of_ne fun running => quiet ⟨reached, running⟩
    · exact h.held up (by omega)

/-- The head leaves: a state that turns RUNNING does so at a count of 16. -/
theorem Tiu.FlowOk.afterTake {u : Tiu} (h : u.FlowOk) {r : Request} {rest : List Request} (queue : u.queue = r :: rest) :
    Tiu.FlowOk { u with queue := rest }.afterTake := by
  rw [Tiu.afterTake_eq]
  constructor
  · intro down
    dsimp only at down ⊢
    split
    · rfl
    · exact h.down down
  · intro up full
    dsimp only at up full ⊢
    have more : Config.holdCount ≤ u.queue.length := by rw [queue, List.length_cons]; omega
    have large : 48 ≤ rest.length := full
    rw [if_neg (by omega)]
    exact h.held up more

theorem Tiu.FlowOk.linkUp {u : Tiu} (h : u.FlowOk) (down : u.link = .down) :
    Tiu.FlowOk (if Config.holdCount ≤ u.queue.length ∧ u.flow = .running
      then { u with link := .up }.sendFlow .hold .held else { u with link := .up }) := by
  have running := h.down down
  split
  · exact ⟨nofun, fun _ _ => rfl⟩
  · rename_i small
    exact ⟨nofun, fun _ full => absurd ⟨full, running⟩ small⟩

theorem Grant.tiu {s u : State} (g : Grant s u) : u.tiu = s.tiu := by
  cases g with
  | audio | copy => rfl
  | motion => simp
  | housekeeping => simp

theorem Effect.keeps_flow {t : Time} {s u : State} (e : Effect t s u) (h : s.tiu.FlowOk) : u.tiu.FlowOk := by
  cases e with
  | granted u g => exact g.tiu.symm ▸ h
  | linkUp down => exact h.linkUp down
  | linkDown => exact ⟨fun _ => by simp, fun up => by simp at up⟩
  | write up addr len data =>
    rcases State.arriveWrite_tiu { s with now := t } addr len data with same | ⟨_, joins⟩
    · rw [same]; exact h
    · rw [joins]; exact h.join up _
  | read up addr len tag =>
    rcases State.arriveRead_tiu { s with now := t } addr len tag with ⟨o, _, refused⟩ | ⟨_, _, joins⟩
    · rw [refused]; exact h.of_eq (by simp) (by simp) (by simp)
    · rw [joins]; exact Tiu.FlowOk.join (u := s.tiu.setTag tag .outstanding) (h.of_eq rfl rfl rfl) up _
  | takeWrite addr len data rest queue =>
    have taken : (s.headTaken t rest).tiu.FlowOk := h.afterTake queue
    exact taken.of_eq (by simp) (by simp) (by simp)
  | takeRead addr len tag rest queue =>
    have taken : (s.headTaken t rest).tiu.FlowOk := h.afterTake queue
    exact taken.of_eq rfl rfl rfl
  | inboundReadDone => exact h.of_eq (by split <;> simp) (by split <;> simp) (by split <;> simp)
  | _ => exact h.of_eq (by simp) (by simp) (by simp)

/-! ### Room on the tether -/

/-- The room of the TIU's queue and of its upstream lists. -/
structure Tiu.RoomOk (u : Tiu) : Prop where
  inbound : u.queue.length ≤ Config.queueLimit
  refusals : u.order.countP Upstream.isRefusal ≤ Config.refusalLimit
  attentions : u.order.countP Upstream.isAttention ≤ Config.attentionLimit

theorem Tiu.RoomOk.of_eq {u v : Tiu} (h : u.RoomOk) (queue : v.queue = u.queue) (order : v.order = u.order) : v.RoomOk :=
  ⟨queue ▸ h.inbound, order ▸ h.refusals, order ▸ h.attentions⟩

/-- Any queue within the old one, and any order within the old one, have room. -/
theorem Tiu.RoomOk.of_sublist {u v : Tiu} (h : u.RoomOk) (queue : v.queue.Sublist u.queue) (order : v.order.Sublist u.order) :
    v.RoomOk :=
  ⟨queue.length_le.trans h.inbound, order.countP_le.trans h.refusals, order.countP_le.trans h.attentions⟩

theorem Tiu.RoomOk.join {u : Tiu} (h : u.RoomOk) (room : u.queue.length < Config.queueLimit) (r : Request) :
    (u.join r).RoomOk :=
  ⟨by simpa using room, by simpa using h.refusals, by simpa using h.attentions⟩

theorem Tiu.RoomOk.refuse {u : Tiu} (h : u.RoomOk) (tag : Fin 32) (o : ReadOutcome) :
    (u.refuse tag o).RoomOk := by
  unfold Tiu.refuse
  split
  · refine ⟨h.inbound, ?_, ?_⟩
    · rw [List.countP_append]
      exact Nat.add_le_of_le_sub (by decide) (Nat.le_sub_one_of_lt ‹_›) |>.trans' (Nat.add_le_add_left List.countP_le_length _)
    · rw [List.countP_append]
      exact h.attentions
  · exact h

theorem Tiu.RoomOk.attend {u : Tiu} (h : u.RoomOk) (position kind : Nat) : (u.attend position kind).RoomOk := by
  unfold Tiu.attend
  split
  · rename_i room
    refine ⟨h.inbound, ?_, ?_⟩
    · rw [List.countP_append]
      exact h.refusals
    · rw [List.countP_append]
      exact room.2
  · exact h

theorem Tiu.RoomOk.announce {u : Tiu} (h : u.RoomOk) (mask : Word) (shown : Nat × Nat) : (u.announce mask shown).RoomOk := by
  unfold Tiu.announce
  split
  · exact h.attend _ _
  · exact h

theorem Tiu.RoomOk.announces {u : Tiu} (h : u.RoomOk) (mask : Word) (shown : List (Nat × Nat)) :
    (shown.foldl (fun u p => u.announce mask p) u).RoomOk := by
  induction shown generalizing u with
  | nil => exact h
  | cons p rest ih => exact ih (h.announce mask p)

/-- An OK answer joins the upstream order: it is no refusal and no ATTENTION. -/
theorem Tiu.RoomOk.answer {u : Tiu} (h : u.RoomOk) (tag : Fin 32) (data : List Byte) :
    Tiu.RoomOk { u with service := .idle, order := u.order ++ [.readData tag .ok data] } :=
  ⟨h.inbound, by simpa [List.countP_append, Upstream.isRefusal] using h.refusals,
    by simpa [List.countP_append, Upstream.isAttention] using h.attentions⟩

theorem Effect.keeps_tiuRoom {t : Time} {s u : State} (e : Effect t s u) (h : s.tiu.RoomOk) : u.tiu.RoomOk := by
  cases e with
  | granted u g => exact g.tiu.symm ▸ h
  | linkUp => split <;> exact h.of_eq rfl rfl
  | linkDown => exact h.of_sublist (by simp) (by simp)
  | write up addr len data =>
    rcases State.arriveWrite_tiu { s with now := t } addr len data with same | ⟨room, joins⟩
    · rw [same]; exact h
    · rw [joins]; exact h.join room _
  | read up addr len tag =>
    rcases State.arriveRead_tiu { s with now := t } addr len tag with ⟨o, _, refused⟩ | ⟨_, room, joins⟩
    · rw [refused]; exact h.refuse tag o
    · rw [joins]; exact Tiu.RoomOk.join (u := s.tiu.setTag tag .outstanding) (h.of_eq rfl rfl) room _
  | takeWrite _ _ _ _ queue => exact h.of_sublist (by simp [queue]) (by simp)
  | takeRead _ _ _ _ queue => exact h.of_sublist (by simp [queue]) (by simp)
  | inboundReadDone a tag =>
    split
    · exact h.answer tag _
    · exact h.of_eq rfl rfl
  | sentAnswer _ _ _ order => exact h.of_sublist (List.Sublist.refl _) (by simp [order])
  | sentOther _ _ order => exact h.of_sublist (List.Sublist.refl _) (by simp [order])
  | noticesShown => exact h.announces _ _
  | _ => exact h.of_eq (by simp) (by simp)

/-! ### Room in the notice queue -/

/-- No more notices are unread than the queue holds. -/
def noticesWithin (producer consumer : Word) : Prop := (producer - consumer).toNat ≤ Config.noticeLimit

/-- A posting takes a place only where there is one. -/
@[simp] theorem Hku.post_noticesWithin (h : Hku) (t : Time) (n : Notice) :
    noticesWithin (h.post t n).noticeProducer h.noticeConsumer ↔ noticesWithin h.noticeProducer h.noticeConsumer := by
  unfold noticesWithin
  by_cases room : (h.noticeProducer - h.noticeConsumer).toNat < Config.noticeLimit
  · rw [Hku.post_room h t n room]
    have next : (h.noticeProducer + 1 - h.noticeConsumer).toNat ≤ (h.noticeProducer - h.noticeConsumer).toNat + 1 := by
      rw [show h.noticeProducer + 1 - h.noticeConsumer = h.noticeProducer - h.noticeConsumer + 1 by
        simp only [BitVec.sub_eq_add_neg]; ac_rfl, BitVec.toNat_add]
      exact Nat.mod_le _ _
    exact ⟨fun _ => room.le, fun _ => next.trans room⟩
  · rw [Hku.post_full h t n room]

@[simp] theorem State.post_hku (s : State) (n : Notice) : (s.post n).hku = s.hku.post s.now n := rfl

@[simp] theorem State.postAt_hku (s : State) (t : Time) (n : Notice) : (s.postAt t n).hku = s.hku.post t n := rfl

/-- The HKU's notice counts are within the queue. -/
def Hku.noticesOk (h : Hku) : Prop := noticesWithin h.noticeProducer h.noticeConsumer

@[simp] theorem Hku.noticesWithin_eq (h : Hku) : noticesWithin h.noticeProducer h.noticeConsumer = h.noticesOk := rfl

@[simp] theorem Hku.post_noticesOk (h : Hku) (t : Time) (n : Notice) : (h.post t n).noticesOk ↔ h.noticesOk := by
  rw [Hku.noticesOk, Hku.post_noticeConsumer, Hku.post_noticesWithin, Hku.noticesWithin_eq]

/-- Of a HKU written out, the two counts decide. -/
@[simp] theorem Hku.mk_noticesOk (part flashDue source adjusted settings layout consumer latest compareDue work consumerDue
    noticeProducer noticeWritten noticeShown noticeConsumer writeList unshown attentionMask statusTimer statusDue statusRest
    statusCount permit counters) :
    (Hku.mk part flashDue source adjusted settings layout consumer latest compareDue work consumerDue noticeProducer
      noticeWritten noticeShown noticeConsumer writeList unshown attentionMask statusTimer statusDue statusRest statusCount
      permit counters).noticesOk = noticesWithin noticeProducer noticeConsumer := rfl

section
variable (s : State)

@[simp] theorem State.posts_noticesOk (l : List Notice) :
    (l.foldl State.post s).hku.noticesOk ↔ s.hku.noticesOk := by
  induction l generalizing s with
  | nil => rfl
  | cons n rest ih => rw [List.foldl_cons, ih]; simp

@[simp] theorem State.compareProducer_noticesOk :
    s.compareProducer.hku.noticesOk ↔ s.hku.noticesOk := by
  unfold State.compareProducer; dsimp only
  split
  · simp
  · split <;> simp

@[simp] theorem State.finishTaking_noticesOk :
    s.finishTaking.hku.noticesOk ↔ s.hku.noticesOk := by
  unfold State.finishTaking; dsimp only; split <;> simp

@[simp] theorem State.finishRestart_noticesOk :
    s.finishRestart.hku.noticesOk ↔ s.hku.noticesOk := by
  unfold State.finishRestart; dsimp only; split <;> simp

@[simp] theorem State.refuse_noticesOk (r : Record) (x : Reason) :
    (s.refuse r x).hku.noticesOk ↔ s.hku.noticesOk := by simp [State.refuse]

@[simp] theorem State.takeWrite_noticesOk (addr : Word) (len : Nat) (data : List Byte) :
    (s.takeWrite addr len data).hku.noticesOk ↔ s.hku.noticesOk := by
  have noted (n : Nat) : (s.noteRefused addr n).hku.noticesOk ↔ s.hku.noticesOk := by
    unfold State.noteRefused; dsimp only
    split
    · rfl
    · split <;> simp
  unfold State.takeWrite; dsimp only; split <;> exact noted _

@[simp] theorem State.discardMessage_noticesOk : s.discardMessage.hku.noticesOk ↔ s.hku.noticesOk := Iff.rfl

@[simp] theorem State.showNotices_noticesOk (w : Word) : (s.showNotices w).hku.noticesOk ↔ s.hku.noticesOk := Iff.rfl

@[simp] theorem State.arriveWrite_noticesOk (addr : Word) (len : Nat) (data : List Byte) :
    (s.arriveWrite addr len data).hku.noticesOk ↔ s.hku.noticesOk := by
  unfold State.arriveWrite
  split
  · simp
  · split <;> simp

@[simp] theorem State.takeProducer_noticesOk (v : Word) :
    (s.takeProducer v).hku.noticesOk ↔ s.hku.noticesOk := by
  unfold State.takeProducer; dsimp only; split <;> simp

@[simp] theorem State.takeCueRequest_noticesOk (v : Word) :
    (s.takeCueRequest v).hku.noticesOk ↔ s.hku.noticesOk := by
  unfold State.takeCueRequest; dsimp only
  split
  · split <;> simp
  · rfl

@[simp] theorem State.checkTable_noticesOk (r : Record) (l : Layout) :
    (s.checkTable r l).hku.noticesOk ↔ s.hku.noticesOk := by
  unfold State.checkTable; split <;> simp [State.applyLayout]

@[simp] theorem State.grantHousekeeping_noticesOk (w : HousekeepingWork) :
    (s.grantHousekeeping w).hku.noticesOk ↔ s.hku.noticesOk := by
  cases w <;> simp [State.grantHousekeeping]

/-! #### Power -/

@[simp] theorem State.takeCeiling_noticesOk (c : Fin 8) :
    (s.takeCeiling c).hku.noticesOk ↔ s.hku.noticesOk := by
  unfold State.takeCeiling; dsimp only; split <;> simp

@[simp] theorem State.testVoltage_noticesOk (v i : Nat) :
    (s.testVoltage v i).hku.noticesOk ↔ s.hku.noticesOk := by
  unfold State.testVoltage; dsimp only
  split
  · split <;> simp
  · rfl

@[simp] theorem State.stepLevel_noticesOk (l : Fin 8) (c : LevelCause) :
    (s.stepLevel l c).hku.noticesOk ↔ s.hku.noticesOk := by simp [State.stepLevel]

@[simp] theorem State.overWindow_noticesOk : s.overWindow.hku.noticesOk ↔ s.hku.noticesOk := by
  unfold State.overWindow
  split
  · rfl
  · split <;> simp

@[simp] theorem State.underWindow_noticesOk : s.underWindow.hku.noticesOk ↔ s.hku.noticesOk := by
  unfold State.underWindow; dsimp only; split <;> simp

@[simp] theorem State.endWindow_noticesOk : s.endWindow.hku.noticesOk ↔ s.hku.noticesOk := by
  unfold State.endWindow; dsimp only
  split
  · simp
  · split <;> simp

@[simp] theorem State.takeSample_noticesOk (r : MonitorReading) :
    (s.takeSample r).hku.noticesOk ↔ s.hku.noticesOk := by
  unfold State.takeSample; dsimp only; split <;> simp

/-! #### Motion and copy -/

@[simp] theorem State.takeReading_noticesOk (r : SensorReading) (t : Time) :
    (s.takeReading r t).hku.noticesOk ↔ s.hku.noticesOk := by
  unfold State.takeReading; dsimp only
  by_cases stalled : s.mu.motion = .stalled <;> simp [stalled]

@[simp] theorem State.noteRing_noticesOk (n : Nat) (r : PoseRecord) :
    (s.noteRing n r).hku.noticesOk ↔ s.hku.noticesOk := by
  unfold State.noteRing; dsimp only
  split <;> split <;> simp

@[simp] theorem State.closeJob_noticesOk (j : Job) (o : JobOutcome) (n : Nat) :
    (s.closeJob j o n).hku.noticesOk ↔ s.hku.noticesOk := by simp [State.closeJob]

@[simp] theorem State.endRunning_noticesOk (j : Job) (o : JobOutcome) (n : Nat) :
    (s.endRunning j o n).hku.noticesOk ↔ s.hku.noticesOk := by simp [State.endRunning]

@[simp] theorem State.abortJob_noticesOk (i : Nat) (j : Job) :
    (s.abortJob i j).hku.noticesOk ↔ s.hku.noticesOk := by
  unfold State.abortJob
  split
  · simp
  · split <;> simp

@[simp] theorem State.copyWritten_noticesOk (j : Job) (n : Nat) :
    (s.copyWritten j n).hku.noticesOk ↔ s.hku.noticesOk := by
  unfold State.copyWritten; dsimp only
  split
  · simp
  · split <;> simp

/-! #### Display -/

@[simp] theorem State.noteStale_noticesOk (k : Fin 4) (h : ConsoleHalf) (b : Bool) :
    (s.noteStale k h b).hku.noticesOk ↔ s.hku.noticesOk := by
  unfold State.noteStale; dsimp only; split <;> simp

@[simp] theorem State.showSlot_noticesOk (k : Fin 4) (h : ConsoleHalf) :
    (s.showSlot k h).hku.noticesOk ↔ s.hku.noticesOk := by simp [State.showSlot]

@[simp] theorem State.stopBoundary_noticesOk : s.stopBoundary.hku.noticesOk ↔ s.hku.noticesOk := by
  simp [State.stopBoundary]

@[simp] theorem State.skips_noticesOk (l : List (Fin 4)) :
    (l.foldl State.skipSlot s).hku.noticesOk ↔ s.hku.noticesOk := by
  induction l generalizing s with
  | nil => rfl
  | cons k rest ih => rw [List.foldl_cons, ih]; simp [State.skipSlot]

@[simp] theorem State.resumeContent_noticesOk (k : Fin 4) :
    (s.resumeContent k).hku.noticesOk ↔ s.hku.noticesOk := by
  unfold State.resumeContent; split <;> simp

@[simp] theorem State.chooseBoundary_noticesOk (older : List (Fin 4)) (k : Fin 4) :
    (s.chooseBoundary older k).hku.noticesOk ↔ s.hku.noticesOk := by
  simp [State.chooseBoundary]

@[simp] theorem State.repeatBoundary_noticesOk (k : Fin 4) :
    (s.repeatBoundary k).hku.noticesOk ↔ s.hku.noticesOk := by
  unfold State.repeatBoundary; dsimp only; split <;> simp

@[simp] theorem State.blankBoundary_noticesOk : s.blankBoundary.hku.noticesOk ↔ s.hku.noticesOk := by
  simp [State.blankBoundary]

@[simp] theorem State.loseContent_noticesOk (k : Fin 4) :
    (s.loseContent k).hku.noticesOk ↔ s.hku.noticesOk := by simp [State.loseContent]

@[simp] theorem State.boundary_noticesOk : s.boundary.hku.noticesOk ↔ s.hku.noticesOk := by
  unfold State.boundary
  split
  · simp
  · dsimp only
    split
    · simp
    · split <;> simp
    · simp

/-! #### Audio -/

@[simp] theorem State.settleOverrun_noticesOk : s.settleOverrun.hku.noticesOk ↔ s.hku.noticesOk := by
  unfold State.settleOverrun; dsimp only; split <;> simp

@[simp] theorem State.settlePlayback_noticesOk :
    s.settlePlayback.1.hku.noticesOk ↔ s.hku.noticesOk := by
  unfold State.settlePlayback
  generalize start : (if s.au.playbackStop then _ else s) = v
  have same : v.hku = s.hku := by subst start; split <;> rfl
  rw [← same]
  dsimp only
  split
  · split <;> simp
  · split <;> simp [State.playBlock]
  · split <;> simp [State.playBlock, State.starve]

@[simp] theorem State.endCue_noticesOk : s.endCue.hku.noticesOk ↔ s.hku.noticesOk := by
  unfold State.endCue
  split
  · split <;> simp
  · rfl

@[simp] theorem State.settleCue_noticesOk : s.settleCue.1.hku.noticesOk ↔ s.hku.noticesOk := by
  unfold State.settleCue; dsimp only; split <;> simp

@[simp] theorem State.recordBlock_noticesOk (g : Gathering) :
    (s.recordBlock g).1.hku.noticesOk ↔ s.hku.noticesOk := by
  unfold State.recordBlock; dsimp only
  split
  · rfl
  · dsimp only; split <;> simp

@[simp] theorem State.settleCapture_noticesOk :
    s.settleCapture.1.hku.noticesOk ↔ s.hku.noticesOk := by
  unfold State.settleCapture; dsimp only
  split
  · cases s.au.gathering <;> dsimp only <;> split <;> simp
  · rfl

@[simp] theorem State.blockBoundary_noticesOk :
    s.blockBoundary.hku.noticesOk ↔ s.hku.noticesOk := by
  simp [State.blockBoundary, State.settleVolume]

end

/-- A consumer value held within a limit lies within it. -/
theorem heldConsumer_within (producer value : Word) (limit : Nat) :
    (producer - heldConsumer producer value limit).toNat ≤ limit := by
  unfold heldConsumer signedDiff
  split
  · simp
  · split
    · rename_i nonneg within
      rw [BitVec.toInt_eq_toNat_cond] at nonneg within
      split at within <;> omega
    · have undo : producer - (producer - BitVec.ofNat 32 limit) = BitVec.ofNat 32 limit := sub_sub_cancel _ _
      rw [undo, BitVec.toNat_ofNat]
      exact Nat.mod_le _ _

theorem Effect.keeps_noticesOk {t : Time} {s u : State} (e : Effect t s u) (h : s.hku.noticesOk) :
    u.hku.noticesOk := by
  cases e with
  | granted u g => cases g <;> simpa using h
  | noticeConsumer => exact heldConsumer_within _ _ _
  | restart => simp [Hku.restarted, noticesWithin]
  | _ => simpa using h

/-! ### Room in publication -/

/-- The room of the publication list and of the history. -/
structure Publication.RoomOk (p : Publication) : Prop where
  publication : p.list.length ≤ Config.publicationLimit
  history : p.history.length ≤ Config.historyLimit

theorem Publication.RoomOk.of_eq {p q : Publication} (h : p.RoomOk) (list : q.list = p.list) (history : q.history = p.history) :
    q.RoomOk := ⟨list ▸ h.publication, history ▸ h.history⟩

/-- A record joins the list, which loses one when it is full. -/
theorem Publication.RoomOk.append {p : Publication} (h : p.RoomOk) (r : PoseRecord) : (p.append r).RoomOk := by
  refine ⟨?_, h.history⟩
  unfold Publication.append
  dsimp only
  rw [List.length_append, List.length_singleton]
  have bound := h.publication
  unfold Config.publicationLimit at bound ⊢
  split
  · omega
  · have erased : (if p.headGranted then 1 else 0) < p.list.length := by split <;> omega
    rw [List.length_eraseIdx_of_lt erased]
    omega

theorem Publication.RoomOk.written {p : Publication} (h : p.RoomOk) (r : PoseRecord) : (p.written r).RoomOk := by
  refine ⟨(List.tail_sublist _).length_le.trans h.publication, ?_⟩
  have bound := h.history
  unfold Publication.written enterHistory Config.historyLimit at *
  dsimp only
  rw [List.length_append, List.length_singleton]
  split
  · omega
  · rw [List.length_tail]
    omega

theorem Effect.keeps_pubRoom {t : Time} {s u : State} (e : Effect t s u) (h : s.mu.pub.RoomOk) : u.mu.pub.RoomOk := by
  cases e with
  | granted u g =>
    cases g with
    | motion => exact h.of_eq (by simp) (by simp)
    | audio | copy => exact h
    | housekeeping => exact h.of_eq (by simp) (by simp)
  | restart => exact ⟨by simp [Publication.restarted], by simp [Publication.restarted]⟩
  | motionStart => exact ⟨by simpa [Publication.started] using h.publication, by simp [Publication.started]⟩
  | motionStop => exact ⟨by simp [Publication.stopped], by simp [Publication.stopped]⟩
  | sampleTaken reading time =>
    rcases State.takeReading_pub { s with now := t, mu.sensor.busy := none } reading time with same | ⟨q, r, _, _, joins⟩
    · exact h.of_eq (by simp [same]) (by simp [same])
    · exact (h.append r).of_eq (by simp [joins]) (by simp [joins])
  | ringWritten a r => exact h.written r
  | _ => exact h.of_eq (by simp) (by simp)

/-! ### Room in the job queue -/

@[simp] theorem State.endRunning_jobs (s : State) (j : Job) (o : JobOutcome) (n : Nat) :
    (s.endRunning j o n).ce.jobs = s.ce.jobs.tail := rfl

@[simp] theorem State.queueJob_jobs (s : State) (j : Job) :
    (s.queueJob j).ce.jobs = s.ce.jobs ++ [{ j with marks := s.destSlots j }] := rfl

theorem State.abortJob_jobs_length (s : State) (i : Nat) (j : Job) (found : s.ce.jobs[i]? = some j) :
    (s.abortJob i j).ce.jobs.length ≤ s.ce.jobs.length := by
  have bound := (List.getElem?_eq_some_iff.mp found).1
  unfold State.abortJob
  split
  · exact List.length_eraseIdx_le _ _
  · split
    · simp only [List.length_cons, List.length_tail]
      omega
    · simp

theorem State.copyWritten_jobs (s : State) (j : Job) (n : Nat) :
    (s.copyWritten j n).ce.jobs = s.ce.jobs ∨ (s.copyWritten j n).ce.jobs = s.ce.jobs.tail := by
  unfold State.copyWritten
  dsimp only
  split
  · exact .inr rfl
  · split
    · exact .inr rfl
    · exact .inl rfl

/-! The power operations change of the CE only the paused flag (R131). -/

@[simp] theorem State.takeCeiling_jobs (s : State) (c : Fin 8) :
    (s.takeCeiling c).ce.jobs = s.ce.jobs ∧ (s.takeCeiling c).ce.progress = s.ce.progress := by
  unfold State.takeCeiling; dsimp only; split <;> simp

@[simp] theorem State.testVoltage_jobs (s : State) (v i : Nat) :
    (s.testVoltage v i).ce.jobs = s.ce.jobs ∧ (s.testVoltage v i).ce.progress = s.ce.progress := by
  unfold State.testVoltage; dsimp only
  split
  · split <;> simp
  · simp

@[simp] theorem State.stepLevel_jobs (s : State) (l : Fin 8) (c : LevelCause) :
    (s.stepLevel l c).ce.jobs = s.ce.jobs ∧ (s.stepLevel l c).ce.progress = s.ce.progress := by simp [State.stepLevel]

@[simp] theorem State.overWindow_jobs (s : State) :
    s.overWindow.ce.jobs = s.ce.jobs ∧ s.overWindow.ce.progress = s.ce.progress := by
  unfold State.overWindow
  split
  · simp
  · split <;> simp

@[simp] theorem State.underWindow_jobs (s : State) :
    s.underWindow.ce.jobs = s.ce.jobs ∧ s.underWindow.ce.progress = s.ce.progress := by
  unfold State.underWindow; dsimp only; split <;> simp

@[simp] theorem State.endWindow_jobs (s : State) :
    s.endWindow.ce.jobs = s.ce.jobs ∧ s.endWindow.ce.progress = s.ce.progress := by
  unfold State.endWindow; dsimp only
  split
  · simp
  · split <;> simp

@[simp] theorem State.takeSample_jobs (s : State) (r : MonitorReading) :
    (s.takeSample r).ce.jobs = s.ce.jobs ∧ (s.takeSample r).ce.progress = s.ce.progress := by
  unfold State.takeSample; dsimp only; split <;> simp

theorem Effect.keeps_jobRoom {t : Time} {s u : State} (e : Effect t s u) (h : s.ce.jobs.length ≤ Config.jobLimit) :
    u.ce.jobs.length ≤ Config.jobLimit := by
  cases e with
  | granted u g => cases g <;> simpa using h
  | queueJob r j taking room => simpa using room
  | abortCopy r j i taking found => simpa using (State.abortJob_jobs_length { s with now := t } i j found).trans h
  | readAborts => exact (List.tail_sublist _).length_le.trans h
  | segmentWritten a j rest len =>
    rcases (s.served t a).copyWritten_jobs j len with same | left
    · rw [same]; exact h
    · rw [left]; exact (List.tail_sublist _).length_le.trans h
  | restart => simp
  | _ => simpa using h

/-! ### All of them -/

theorem State.capacitiesOk_iff (s : State) : s.CapacitiesOk ↔
    s.tiu.RoomOk ∧ s.hku.noticesOk ∧ s.mu.pub.RoomOk ∧ s.ce.jobs.length ≤ Config.jobLimit :=
  ⟨fun h => ⟨⟨h.inbound, h.refusals, h.attentions⟩, h.notices, ⟨h.publication, h.history⟩, h.jobs⟩,
    fun ⟨tiu, notices, pub, jobs⟩ =>
      ⟨tiu.inbound, tiu.refusals, tiu.attentions, notices, pub.publication, pub.history, jobs⟩⟩

theorem Effect.keeps_capacitiesOk {t : Time} {s u : State} (e : Effect t s u) (h : s.CapacitiesOk) : u.CapacitiesOk := by
  rw [State.capacitiesOk_iff] at h ⊢
  obtain ⟨tiu, notices, pub, jobs⟩ := h
  exact ⟨e.keeps_tiuRoom tiu, e.keeps_noticesOk notices, e.keeps_pubRoom pub, e.keeps_jobRoom jobs⟩

theorem State.CapacitiesOk.settle {s : State} (h : s.CapacitiesOk) : s.settle.CapacitiesOk := by
  rw [State.capacitiesOk_iff] at h ⊢
  obtain ⟨tiu, notices, pub, jobs⟩ := h
  exact ⟨tiu.of_eq (by simp) (by simp), by simpa using notices, pub.of_eq (by simp) (by simp), by simpa using jobs⟩

theorem State.reset_capacitiesOk : State.reset.CapacitiesOk :=
  ⟨by decide, by decide, by decide, by decide, by decide, by decide, by decide⟩

theorem State.poweredOn_capacitiesOk (s : State) : s.poweredOn.CapacitiesOk :=
  have r := State.reset_capacitiesOk
  ⟨r.inbound, r.refusals, r.attentions, r.notices, r.publication, r.history, r.jobs⟩

/-- What every effect keeps at the time of the state, every grant keeps. -/
theorem Grant.effect {s u : State} (g : Grant s u) : Effect s.now s u := .granted u g

end Sys2Proof.Machine

open Sys2Proof Sys2Proof.Machine

/-- Settles O51: queue by queue, each operation adds only where there is room. -/
theorem capacitiesKept : Obligations.CapacitiesKept := by
  unfold Obligations.CapacitiesKept
  intro s s' h run
  exact step_keeps (fun _ _ h => { h with }) (fun _ _ g h => g.effect.keeps_capacitiesOk h)
    (fun _ _ _ e h => e.keeps_capacitiesOk h) (fun _ h => h.settle) (fun v _ => v.poweredOn_capacitiesOk) h run

end

section
/-! SUPPORT. The read tags (R5, R8, R10, R17) at every step: a read moves from the queue to the service, the port and the upstream
order, and its tag is OUTSTANDING all that way. -/

namespace Sys2Proof.Machine

/-! ### What the invariant is about: the TIU, and the inbound access at the port -/

/-- The kind of the inbound access at the port, if there is one. -/
def State.inboundAtPort (s : State) : Option AccessKind := (s.port.map Access.kind).filter fun k => k.client == .inbound

/-- The reads of a tag in the TIU: queued, in service, or answered and not yet sent. -/
def Tiu.inside (u : Tiu) (tag : Fin 32) : Nat :=
  u.queue.countP (Request.reads tag) + (if u.service.reads tag then 1 else 0) + u.order.countP (Upstream.answers tag)

/-- The tag invariant, of the TIU with the inbound access at the port. -/
structure Tiu.TagsOk (u : Tiu) (k : Option AccessKind) : Prop where
  service : k ≠ none → u.service = .atPort
  reads : ∀ tag : Fin 32, u.inside tag + (if k = some (.inboundRead tag) then 1 else 0) =
    if u.tags[tag] = .outstanding then 1 else 0

theorem State.inboundAtPort_reads (s : State) (tag : Fin 32) :
    s.port.any (Access.reads tag) = true ↔ s.inboundAtPort = some (.inboundRead tag) := by
  cases port : s.port with
  | none => simp [State.inboundAtPort, port]
  | some a =>
    simp only [State.inboundAtPort, port, Option.any_some, Access.reads, beq_iff_eq, Option.map_some, Option.filter_some]
    constructor
    · intro kind
      simp [kind, AccessKind.client]
    · split <;> simp

theorem State.inboundAtPort_ne_none (s : State) :
    s.inboundAtPort ≠ none ↔ ∃ a, s.port = some a ∧ a.kind.client = .inbound := by
  cases port : s.port <;> simp [State.inboundAtPort, port]

theorem State.tagsOk_iff (s : State) : s.TagsOk ↔ s.tiu.TagsOk s.inboundAtPort := by
  have count (tag : Fin 32) : s.readsOf tag =
      s.tiu.inside tag + (if s.inboundAtPort = some (.inboundRead tag) then 1 else 0) := by
    simp only [State.readsOf, Tiu.inside, ← s.inboundAtPort_reads]
    omega
  constructor
  · intro h
    refine ⟨fun some_kind => ?_, fun tag => (count tag).symm.trans (h.reads tag)⟩
    obtain ⟨a, port, client⟩ := s.inboundAtPort_ne_none.mp some_kind
    exact h.service a port client
  · intro h
    refine ⟨fun a port client => h.service (s.inboundAtPort_ne_none.mpr ⟨a, port, client⟩), fun tag => ?_⟩
    exact (count tag).trans (h.reads tag)

/-! ### The inbound access at the port under the operations of a step -/

theorem State.inboundAtPort_congr {s u : State} (h : u.port = s.port) : u.inboundAtPort = s.inboundAtPort := by
  simp only [State.inboundAtPort, h]

theorem State.inboundAtPort_free {s : State} (h : s.port = none) : s.inboundAtPort = none := by
  simp only [State.inboundAtPort, h]; rfl

theorem State.inboundAtPort_of {s : State} {a : Access} (port : s.port = some a) (client : a.kind.client = .inbound) :
    s.inboundAtPort = some a.kind := by
  simp [State.inboundAtPort, port, client]

theorem State.inboundAtPort_other {s : State} {a : Access} (port : s.port = some a) (client : a.kind.client ≠ .inbound) :
    s.inboundAtPort = none := by
  simp [State.inboundAtPort, port, client]

/-- The access at the port stays, but that its owner may have dropped it (log entry 16). -/
def PortKept (before after : Option Access) : Prop :=
  after = before ∨ ∃ a, before = some a ∧ after = some { a with live := false }

@[simp] theorem PortKept.refl (p : Option Access) : PortKept p p := .inl rfl

theorem PortKept.trans {p q r : Option Access} (h : PortKept p q) (g : PortKept q r) : PortKept p r := by
  rcases h with rfl | ⟨a, rfl, rfl⟩
  · exact g
  · rcases g with rfl | ⟨b, hb, rfl⟩
    · exact .inr ⟨a, rfl, rfl⟩
    · cases hb
      exact .inr ⟨a, rfl, rfl⟩

/-- Dropping an access clears its live mark alone. -/
theorem State.dropAccess_kept (s : State) (p : AccessKind → Bool) : PortKept s.port (s.dropAccess p).port := by
  unfold State.dropAccess
  split
  · split
    · exact .inr ⟨_, ‹_›, rfl⟩
    · exact .refl _
  · exact .refl _

theorem State.endScan_kept (s : State) : PortKept s.port s.endScan.port := s.dropAccess_kept _

theorem State.dropChosen_kept (s : State) : PortKept s.port s.dropChosen.port := s.dropAccess_kept _

/-- A boundary drops at most what the access at the port is for. -/
theorem State.boundary_kept (s : State) : PortKept s.port s.boundary.port := by
  have blank {v : State} (same : v.port = s.port) : PortKept s.port v.blankBoundary.port :=
    same ▸ v.endScan_kept.trans (v.endScan.dropChosen_kept.trans (by simp [State.blankBoundary]))
  have choose {v : State} (same : v.port = s.port) (older : List (Fin 4)) (k : Fin 4) :
      PortKept s.port (v.chooseBoundary older k).port := by
    unfold State.chooseBoundary
    simp only [State.beginFrame_frame]
    exact .trans (.trans (by simp [same]) (State.endScan_kept _)) (State.dropChosen_kept _)
  have again {v : State} (same : v.port = s.port) (k : Fin 4) : PortKept s.port (v.repeatBoundary k).port := by
    unfold State.repeatBoundary
    dsimp only
    split
    · simp only [State.showSlot_frame, State.beginFrame_frame]
      exact .trans (by simp [same]) (State.endScan_kept _)
    · simp only [State.beginFrame_frame]
      exact .trans (by simp [same]) (State.endScan_kept _)
  unfold State.boundary
  split
  · exact s.endScan_kept.trans s.endScan.dropChosen_kept
  · dsimp only
    split
    · exact choose (by rfl) _ _
    · split
      · exact again (by rfl) _
      · exact blank (by simp)
    · exact blank (by rfl)

theorem State.restart_kept (s : State) (r : Record) : PortKept s.port (s.restart r).port := by
  unfold State.restart
  exact State.dropAccess_kept _ _

theorem State.inboundAtPort_kept {s u : State} (h : PortKept s.port u.port) : u.inboundAtPort = s.inboundAtPort := by
  rcases h with same | ⟨a, before, after⟩
  · exact State.inboundAtPort_congr same
  · simp [State.inboundAtPort, before, after]

theorem State.markLate_inboundAtPort (s : State) : s.markLate.inboundAtPort = s.inboundAtPort := by
  cases port : s.port with
  | none => exact (State.inboundAtPort_free (by simp [State.markLate, port])).trans (State.inboundAtPort_free port).symm
  | some a =>
    by_cases audio : a.kind.client = .inbound
    · refine State.inboundAtPort_congr ?_
      cases kind : a.kind <;> simp_all [State.markLate, AccessKind.client]
    · refine (State.inboundAtPort_other (a := match a.kind with
        | .audio w => { a with kind := .audio { w with late := true } }
        | _ => a) (by simp only [State.markLate, port]; rfl) ?_).trans (State.inboundAtPort_other port audio).symm
      split
      · simp [AccessKind.client]
      · exact audio

theorem State.blockBoundary_inboundAtPort (s : State) : s.blockBoundary.inboundAtPort = s.inboundAtPort :=
  (State.inboundAtPort_congr (by simp [State.blockBoundary])).trans s.markLate_inboundAtPort

/-! ### The tags under the operations of the TIU -/

section
variable (tag : Fin 32)

@[simp] theorem Service.reads_idle : Service.idle.reads tag = false := rfl
@[simp] theorem Service.reads_atPort : Service.atPort.reads tag = false := rfl
@[simp] theorem Service.reads_presented (a : Access) : (Service.presented a).reads tag = a.reads tag := rfl
@[simp] theorem Service.reads_raising (events : List (Watched × Word)) : (Service.raising events).reads tag = false := rfl

end

theorem Tiu.TagsOk.of_eq {u v : Tiu} {k : Option AccessKind} (h : u.TagsOk k) (queue : v.queue = u.queue)
    (service : v.service = u.service) (order : v.order = u.order) (tags : v.tags = u.tags) : v.TagsOk k where
  service := service ▸ h.service
  reads tag := by
    rw [Tiu.inside, queue, service, order, tags]
    exact h.reads tag

@[simp] theorem serviceOf_reads (tag : Fin 32) (events : List (Watched × Word)) : (serviceOf events).reads tag = false := by
  unfold serviceOf
  split <;> rfl

/-- An event is taken: the service, which holds no read, goes on. -/
theorem Tiu.TagsOk.event {u : Tiu} {k : Option AccessKind} (h : u.TagsOk k) {events : List (Watched × Word)}
    (raising : u.service = .raising events) (rest : List (Watched × Word)) :
    Tiu.TagsOk { u with service := serviceOf rest } k where
  service := fun inbound => by
    have atPort := h.service inbound
    rw [raising] at atPort
    cases atPort
  reads tag := by
    have same := h.reads tag
    simp only [Tiu.inside, raising, Service.reads_raising, serviceOf_reads] at same ⊢
    exact same

theorem Tiu.tagCount_le (u : Tiu) (tag : Fin 32) : (if u.tags[tag] = .outstanding then 1 else 0) ≤ 1 := by
  split <;> simp

theorem Tiu.setTag_tags (u : Tiu) (tag x : Fin 32) (y : TagState) :
    (u.setTag tag y).tags[x] = if x = tag then y else u.tags[x] := by
  simp only [Tiu.setTag, Fin.getElem_fin, Vector.getElem_set, Fin.ext_iff, eq_comm]

theorem Tiu.setTags_tags (tags : List (Fin 32)) (u : Tiu) (x : Fin 32) (y : TagState) :
    (tags.foldl (fun (u : Tiu) tag => u.setTag tag y) u).tags[x] = if x ∈ tags then y else u.tags[x] := by
  induction tags generalizing u with
  | nil => simp
  | cons tag rest ih =>
    rw [List.foldl_cons, ih, Tiu.setTag_tags]
    by_cases later : x ∈ rest <;> by_cases here : x = tag <;> simp [later, here]

/-- The tag of each OK answer of an order is among those LINK_DOWN frees. -/
theorem mem_okTags (order : List Upstream) (tag : Fin 32) : tag ∈ okTags order ↔ 0 < order.countP (Upstream.answers tag) := by
  rw [okTags, List.mem_filterMap, List.countP_pos_iff]
  refine exists_congr fun m => and_congr_right fun _ => ?_
  cases m with
  | attention => simp [Upstream.answers]
  | readData x o data => cases o <;> simp [Upstream.answers]

/-- The upstream order is discarded, and each OK answer's tag freed (R17). -/
theorem Tiu.TagsOk.linkDown {u : Tiu} {k : Option AccessKind} (h : u.TagsOk k) :
    ((okTags u.order).foldl (fun (u : Tiu) tag => u.setTag tag .free)
      { u with link := .down, flow := .running, order := [], flowOut := [], sending := none }).TagsOk k where
  service := by simpa using h.service
  reads tag := by
    have count := h.reads tag
    have freed := mem_okTags u.order tag
    rw [Tiu.setTags_tags]
    simp only [Tiu.inside, Tiu.setTags_frame, List.countP_nil] at count ⊢
    by_cases answered : tag ∈ okTags u.order
    · have pos := freed.mp answered
      have bound := u.tagCount_le tag
      simp only [if_pos answered, reduceCtorEq, if_false]
      omega
    · have zero : u.order.countP (Upstream.answers tag) = 0 := Nat.eq_zero_of_not_pos (mt freed.mpr answered)
      rw [if_neg answered]
      omega

theorem Tiu.TagsOk.joinWrite {u : Tiu} {k : Option AccessKind} (h : u.TagsOk k) (addr : Word) (len : Nat) (data : List Byte) :
    (u.join (.write addr len data)).TagsOk k where
  service := by simpa using h.service
  reads tag := by
    have count := h.reads tag
    simp only [Tiu.inside, Tiu.join_frame, List.countP_append] at count ⊢
    exact count

/-- A READ joins with its tag, FREE before, now OUTSTANDING (R5, R7). -/
theorem Tiu.TagsOk.joinRead {u : Tiu} {k : Option AccessKind} (h : u.TagsOk k) (addr : Word) (len : Nat) (tag : Fin 32)
    (free : u.tags[tag] ≠ .outstanding) : ((u.setTag tag .outstanding).join (.read addr len tag)).TagsOk k where
  service := by simpa using h.service
  reads x := by
    have count := h.reads x
    have tags : (u.setTag tag .outstanding).tags[x] = if x = tag then .outstanding else u.tags[x] :=
      u.setTag_tags tag x .outstanding
    simp only [Tiu.inside, Tiu.join_frame, Tiu.setTag_frame, List.countP_append, List.countP_singleton, Request.reads] at count ⊢
    rw [tags]
    by_cases same : x = tag
    · subst same
      rw [if_neg free] at count
      simp only [beq_self_eq_true, if_true]
      omega
    · have other : (tag == x) = false := beq_eq_false_iff_ne.mpr (Ne.symm same)
      simp only [other, if_neg same]
      exact count

/-- A message that is no OK answer leaves the count of every tag alone. -/
theorem Tiu.TagsOk.appendOther {u : Tiu} {k : Option AccessKind} (h : u.TagsOk k) (m : Upstream)
    (other : ∀ tag, m.answers tag = false) : Tiu.TagsOk { u with order := u.order ++ [m] } k where
  service := h.service
  reads tag := by
    have count := h.reads tag
    simp only [Tiu.inside, List.countP_append, List.countP_singleton, other tag] at count ⊢
    exact count

theorem Tiu.TagsOk.refuse {u : Tiu} {k : Option AccessKind} (h : u.TagsOk k) (tag : Fin 32) {o : ReadOutcome} (refusal : o ≠ .ok) :
    (u.refuse tag o).TagsOk k := by
  unfold Tiu.refuse
  split
  · refine h.appendOther _ fun _ => ?_
    cases o
    · exact absurd rfl refusal
    all_goals rfl
  · exact h

theorem Tiu.TagsOk.announce {u : Tiu} {k : Option AccessKind} (h : u.TagsOk k) (mask : Word) (shown : Nat × Nat) :
    (u.announce mask shown).TagsOk k := by
  unfold Tiu.announce Tiu.attend
  split
  · split
    · exact h.appendOther _ fun _ => rfl
    · exact h
  · exact h

theorem Tiu.TagsOk.announces {u : Tiu} {k : Option AccessKind} (h : u.TagsOk k) (mask : Word) (shown : List (Nat × Nat)) :
    (shown.foldl (fun u p => u.announce mask p) u).TagsOk k := by
  induction shown generalizing u with
  | nil => exact h
  | cons p rest ih => exact ih (h.announce mask p)

/-- What a WRITE taken makes of the service: nothing, or an access that reads for no tag. -/
theorem State.takeWrite_service (s : State) (addr : Word) (len : Nat) (data : List Byte) :
    (s.takeWrite addr len data).tiu.service = s.tiu.service ∨
    ∃ a, (s.takeWrite addr len data).tiu.service = .presented a ∧ ∀ tag, a.reads tag = false := by
  unfold State.takeWrite
  dsimp only
  split
  · exact .inl (by simp)
  · exact .inr ⟨_, rfl, fun _ => rfl⟩

/-- A request leaves the queue for an idle service. -/
theorem Tiu.TagsOk.take {u v : Tiu} {k : Option AccessKind} (h : u.TagsOk k) {r : Request} {rest : List Request}
    (head : u.queue = r :: rest) (idle : u.service = .idle) (queue : v.queue = rest) (order : v.order = u.order)
    (tags : v.tags = u.tags) (service : ∀ tag, v.service.reads tag = r.reads tag) : v.TagsOk k where
  service := fun inbound => by
    have atPort := h.service inbound
    rw [idle] at atPort
    cases atPort
  reads tag := by
    have count := h.reads tag
    simp only [Tiu.inside, head, idle, queue, order, tags, service tag, List.countP_cons, Service.reads_idle] at count ⊢
    rw [← count]
    simp only [Bool.false_eq_true, if_false, Nat.add_zero]

/-- The read at the port is answered, or its tag freed (R10). -/
theorem Tiu.TagsOk.readDone {u : Tiu} {tag : Fin 32} (h : u.TagsOk (some (.inboundRead tag))) (data : List Byte) :
    Tiu.TagsOk (if u.link = .up then { u with service := .idle, order := u.order ++ [.readData tag .ok data] }
      else { u with service := .idle }.setTag tag .free) none := by
  have atPort := h.service (by simp)
  split
  · refine ⟨fun none_there => absurd rfl none_there, fun x => ?_⟩
    have count := h.reads x
    simp only [Tiu.inside, atPort, Service.reads_atPort, Service.reads_idle, List.countP_append, List.countP_singleton, Upstream.answers, beq_iff_eq,
      Option.some.injEq, AccessKind.inboundRead.injEq] at count ⊢
    simpa [Nat.add_assoc] using count
  · refine ⟨fun none_there => absurd rfl none_there, fun x => ?_⟩
    have count := h.reads x
    rw [Tiu.setTag_tags]
    simp only [Tiu.inside, atPort, Service.reads_atPort, Service.reads_idle, Tiu.setTag_frame, Option.some.injEq, AccessKind.inboundRead.injEq] at count ⊢
    by_cases same : x = tag
    · subst same
      simp only [if_true, if_false, Bool.false_eq_true, reduceCtorEq] at count ⊢
      have bound := u.tagCount_le x
      omega
    · simp only [if_neg same, if_neg (Ne.symm same)] at count ⊢
      simpa using count

/-- An OK answer leaves, and its tag is FREE (R5, R15). -/
theorem Tiu.TagsOk.sentAnswer {u : Tiu} {k : Option AccessKind} (h : u.TagsOk k) {tag : Fin 32} {data : List Byte}
    {rest : List Upstream} (order : u.order = .readData tag .ok data :: rest) :
    ({ u with sending := none, order := rest }.setTag tag .free).TagsOk k where
  service := h.service
  reads x := by
    have count := h.reads x
    rw [Tiu.setTag_tags]
    simp only [Tiu.inside, order, List.countP_cons, Upstream.answers, Tiu.setTag_frame, beq_iff_eq] at count ⊢
    by_cases same : x = tag
    · subst same
      simp only [if_true, reduceCtorEq, if_false] at count ⊢
      have bound := u.tagCount_le x
      omega
    · simp only [if_neg same, if_neg (Ne.symm same)] at count ⊢
      exact count

theorem Tiu.TagsOk.sentOther {u : Tiu} {k : Option AccessKind} (h : u.TagsOk k) {m : Upstream} {rest : List Upstream}
    (order : u.order = m :: rest) (other : ∀ tag, m.answers tag = false) :
    Tiu.TagsOk { u with sending := none, order := rest } k where
  service := h.service
  reads x := by
    have count := h.reads x
    simp only [Tiu.inside, order, List.countP_cons, other x] at count ⊢
    exact count

/-! ### Every step -/

@[simp] theorem State.restartAccess_kind (s : State) (step : RestartStep) : (s.restartAccess step).kind = .restart := by
  cases step <;> rfl

/-- A grant is of an access of its own client. -/
theorem Grant.client {s u : State} (g : Grant s u) : u.port = s.port ∨ ∃ a, u.port = some a ∧ a.kind.client ≠ .inbound := by
  cases g with
  | audio free a rest => exact .inr ⟨_, rfl, by unfold Au.access; split <;> simp [AccessKind.client]⟩
  | motion free w => cases w <;> exact .inr ⟨_, rfl, by simp [motionAccess, AccessKind.client]⟩
  | housekeeping free w =>
    cases w with
    | commandRecord => exact .inl rfl
    | restart step => exact .inr ⟨_, rfl, s.restartAccess_kind step ▸ nofun⟩
    | _ => exact .inr ⟨_, rfl, by simp [writeAccess, AccessKind.client]⟩
  | copy free j => exact .inr ⟨_, rfl, by unfold Job.nextAccess; split <;> simp [AccessKind.client]⟩

theorem Grant.free {s u : State} (g : Grant s u) : s.port = none := by cases g <;> assumption

theorem Grant.inboundAtPort {s u : State} (g : Grant s u) : u.inboundAtPort = s.inboundAtPort := by
  rcases g.client with same | ⟨a, port, other⟩
  · exact State.inboundAtPort_congr same
  · rw [State.inboundAtPort_other port other, State.inboundAtPort_free g.free]

theorem Effect.keeps_tags {t : Time} {s u : State} (e : Effect t s u) (h : s.tiu.TagsOk s.inboundAtPort) :
    u.tiu.TagsOk u.inboundAtPort := by
  cases e with
  | granted u g =>
    rw [g.tiu, g.inboundAtPort]
    exact h
  | linkUp down => split <;> exact h.of_eq rfl rfl rfl rfl
  | linkDown => exact h.linkDown
  | write up addr len data =>
    rw [State.inboundAtPort_congr (s := s) (by simp)]
    rcases State.arriveWrite_tiu { s with now := t } addr len data with same | ⟨_, joins⟩
    · rw [same]; exact h
    · rw [joins]; exact h.joinWrite addr len data
  | read up addr len tag =>
    rw [State.inboundAtPort_congr (s := s) (by simp)]
    rcases State.arriveRead_tiu { s with now := t } addr len tag with ⟨o, refusal, refused⟩ | ⟨free, _, joins⟩
    · rw [refused]; exact h.refuse tag refusal
    · rw [joins]; exact h.joinRead addr len tag free
  | takeWrite addr len data rest queue idle =>
    rw [State.inboundAtPort_congr (s := s) (by simp)]
    refine h.take queue idle (by simp) (by simp) (by simp) fun tag => ?_
    rcases (s.headTaken t rest).takeWrite_service addr len data with same | ⟨a, presented, other⟩
    · rw [same, (s.headTaken_tiu_frame t rest).2.2.1, idle]; rfl
    · rw [presented]; exact other tag
  | takeRead addr len tag rest queue idle =>
    rw [State.inboundAtPort_congr (s := s) (by simp)]
    exact h.take queue idle (by simp) (by simp) (by simp) fun x => by
      simp [Access.reads, Request.reads, eq_comm]
  | inboundWriteDone a watched events port kind inside =>
    rw [State.inboundAtPort_free rfl]
    rw [State.inboundAtPort_of port (by simp [kind, AccessKind.client]), kind] at h
    have atPort := h.service (by simp)
    exact ⟨fun none_there => absurd rfl none_there, fun tag => by
      have count := h.reads tag
      simp only [Tiu.inside, atPort, Service.reads_atPort, serviceOf_reads, Option.some.injEq, reduceCtorEq, if_false] at count ⊢
      exact count⟩
  | inboundReadDone a tag port kind inside =>
    rw [State.inboundAtPort_free rfl]
    rw [State.inboundAtPort_of port (by simp [kind, AccessKind.client]), kind] at h
    exact h.readDone _
  | sentAnswer tag data rest order => exact h.sentAnswer order
  | sentOther m rest order other => exact h.sentOther order other
  | commandProducer _ v rest raising | noticeConsumer _ v rest raising | poseHold _ v rest raising
  | playbackProducer _ v rest raising | captureConsumer _ v rest raising | cueRequest _ v rest raising
  | submitWord _ _ v rest raising =>
    rw [State.inboundAtPort_congr (s := s) (by simp)]
    exact (h.event raising rest).of_eq (by simp) (by simp) (by simp) (by simp)
  | noticesShown a written port kind inside =>
    rw [State.inboundAtPort_other port (by simp [kind, AccessKind.client])] at h
    rw [State.inboundAtPort_free (by simp)]
    exact h.announces _ _
  | tableRead a _ port kind | halvesDone a _ port kind | halfDone a _ _ port kind | restartDone a port kind
  | restartStep a _ port kind | ringWritten a _ port kind | exchangeWritten a _ _ port kind | recordWritten a port kind
  | consoleHalfRead a _ _ port kind | pixelsRead a _ _ port kind | segmentHeld a _ port kind | readAborts a _ _ port kind
  | segmentWritten a _ _ _ port kind | cueRefused a _ _ _ _ port kind | cueStarts a _ _ _ _ port kind
  | captureWritten a _ _ port kind | audioRead a _ _ port kind | noticeWritten a _ _ port kind =>
    rw [State.inboundAtPort_other port (by simp [kind, AccessKind.client])] at h
    rw [State.inboundAtPort_free (by simp)]
    exact h.of_eq (by simp) (by simp) (by simp) (by simp)
  | bootFlash a port kind | bootComplete a port kind | completes a port kind =>
    rw [State.inboundAtPort_other port (by simp [kind])] at h
    rw [State.inboundAtPort_free (by simp)]
    exact h
  | bootNext a next port kind inside nextKind =>
    rw [State.inboundAtPort_other port (by simp [kind])] at h
    rw [State.inboundAtPort_other rfl (by simp [nextKind])]
    exact h
  | bootRecord flash free access kind =>
    rw [State.inboundAtPort_free free] at h
    rw [State.inboundAtPort_other rfl (by simp [kind, AccessKind.client])]
    exact h
  | rampEnds | frameBoundary =>
    rw [State.inboundAtPort_kept (State.boundary_kept _)]
    exact h.of_eq (by simp) (by simp) (by simp) (by simp)
  | blockBoundary =>
    rw [State.blockBoundary_inboundAtPort]
    exact h.of_eq (by simp) (by simp) (by simp) (by simp)
  | restart r =>
    rw [State.inboundAtPort_kept (State.restart_kept _ r)]
    exact h.of_eq (by simp) (by simp) (by simp) (by simp)
  | motionStop =>
    rw [State.inboundAtPort_congr (State.finishTaking_port _), State.inboundAtPort_kept (State.dropAccess_kept _ _)]
    exact h.of_eq (by simp) (by simp) (by simp) (by simp)
  | _ =>
    rw [State.inboundAtPort_congr (s := s) (by simp)]
    exact h.of_eq (by simp) (by simp) (by simp) (by simp)

/-- What scan-out has waiting is an access of its own. -/
theorem State.scanWaiting_client {s : State} {a : Access} (h : s.scanWaiting = some a) : a.kind.client = .scanOut := by
  unfold State.scanWaiting at h
  split at h
  · cases h; rfl
  · cases h
  · split at h
    · split at h
      · cases h; rfl
      · cases h
    · cases h

theorem State.reset_tagsOk : State.reset.TagsOk where
  service := by rintro _ ⟨⟩ ⟨⟩
  reads := by decide

theorem State.poweredOn_tagsOk (s : State) : s.poweredOn.TagsOk := ⟨State.reset_tagsOk.service, State.reset_tagsOk.reads⟩

theorem State.poweredOn_flow (s : State) : s.poweredOn.tiu.FlowOk := ⟨fun _ => rfl, nofun⟩

/-- The access presented goes to the port, and its read with it (R8, R19). -/
theorem Tiu.TagsOk.settle {s : State} (h : s.tiu.TagsOk s.inboundAtPort) : s.settle.tiu.TagsOk s.settle.inboundAtPort := by
  have settled {v : State} (arbitrated : s.arbitrate = v) (ok : v.tiu.TagsOk v.inboundAtPort) :
      s.settle.tiu.TagsOk s.settle.inboundAtPort := by
    subst arbitrated
    exact ok.of_eq (by simp [State.settle]) (by simp [State.settle]) (by simp [State.settle]) (by simp [State.settle])
  cases port : s.port with
  | some a => exact settled (by simp only [State.arbitrate, port]) h
  | none =>
    rw [State.inboundAtPort_free port] at h
    cases scan : s.scanWaiting with
    | some a =>
      refine settled (by simp only [State.arbitrate, port, scan]; rfl) ?_
      rw [State.inboundAtPort_other rfl (by rw [State.scanWaiting_client scan]; decide)]
      exact h
    | none =>
      by_cases grants : s.au.waiting = [] ∧ ∃ a, s.tiu.service = .presented a
      · obtain ⟨quiet, a, presented⟩ := grants
        refine settled (by simp only [State.arbitrate, port, scan, quiet, presented]; rfl) ⟨fun _ => rfl, fun tag => ?_⟩
        have count := h.reads tag
        have reads := State.inboundAtPort_reads { s with port := some a, tiu.service := .atPort } tag
        simp only [Option.any_some] at reads
        simp only [Tiu.inside, presented, Service.reads_presented, Service.reads_atPort, ← reads] at count ⊢
        simp at count ⊢
        omega
      · refine settled (v := s) ?_ (by rw [State.inboundAtPort_free port]; exact h)
        simp only [State.arbitrate, port, scan]
        split
        · rename_i a quiet presented
          exact absurd ⟨quiet, a, presented⟩ grants
        · rfl

end Sys2Proof.Machine

open Sys2Proof Sys2Proof.Machine

/-- Settles O55: the tags by where a read is inside the part, the flow state by the counts at which it changes. -/
theorem readTagsKept : Obligations.ReadTagsKept := by
  unfold Obligations.ReadTagsKept
  refine ⟨fun s s' h run => ?_, fun s s' h run => ?_⟩
  · rw [State.tagsOk_iff] at h ⊢
    exact step_keeps (P := fun s => s.tiu.TagsOk s.inboundAtPort) (fun _ _ h => h) (fun _ _ g h => g.effect.keeps_tags h)
      (fun _ _ _ e h => e.keeps_tags h) (fun _ h => h.settle)
      (fun v _ => v.poweredOn.tagsOk_iff.mp v.poweredOn_tagsOk) h run
  · rw [State.flowOk_iff] at h ⊢
    exact step_keeps (P := fun s => s.tiu.FlowOk) (fun _ _ h => h) (fun _ _ g h => g.effect.keeps_flow h)
      (fun _ _ _ e h => e.keeps_flow h) (fun _ h => h.of_eq (by simp) (by simp) (by simp))
      (fun v _ => v.poweredOn_flow) h run

end

section
/-! SUPPORT. The order of pose sequences (R65, R66, R70) at every step: a record joins the list behind everything, moves to the history
in order, and the ring writes at the port are those of the head of the list. -/

namespace Sys2Proof.Machine

/-! ### The invariant in parts -/

/-- History, list and next sequence in order; the list empty in OFF, and the marks of its head set only with a head there. -/
structure Publication.OrderOk (p : Publication) (motion : MotionState) : Prop where
  increasing : increasing (p.history ++ p.list)
  next : ∀ q, p.nextSeq = some q → above q (p.history ++ p.list)
  off : motion = .off → p.list = []
  granted : p.headGranted = true → p.list ≠ []
  written : p.headWritten = true → p.headGranted = true

/-- The ring writes at the port are those of the head of the list. -/
structure Publication.RingOk (p : Publication) (port : Option Access) : Prop where
  record : ∀ a, port = some a → a.live = true → a.kind = .ringRecord → p.headGranted = true
  control : ∀ a r, port = some a → a.live = true → a.kind = .ringControl r → p.headGranted = true ∧ p.list.head? = some r

/-- What is presented for a request is an access of the inbound client. -/
def Service.inboundOk (x : Service) : Prop := ∀ a, x = .presented a → a.kind.client = .inbound

theorem State.posesOk_iff (s : State) :
    s.PosesOk ↔ s.mu.pub.OrderOk s.mu.motion ∧ s.mu.pub.RingOk s.port ∧ s.tiu.service.inboundOk :=
  ⟨fun h => ⟨⟨h.increasing, h.next, h.off, h.granted, h.written⟩, ⟨h.record, h.control⟩, h.inbound⟩,
    fun ⟨order, ring, service⟩ =>
      ⟨order.increasing, order.next, order.off, order.granted, order.written, ring.record, ring.control, service⟩⟩

/-! ### The order -/

theorem Publication.OrderOk.of_eq {p q : Publication} {m n : MotionState} (h : p.OrderOk m) (list : q.list = p.list)
    (history : q.history = p.history) (nextSeq : q.nextSeq = p.nextSeq) (granted : q.headGranted = p.headGranted)
    (written : q.headWritten = p.headWritten) (motion : n = .off → m = .off) : q.OrderOk n where
  increasing := list ▸ history ▸ h.increasing
  next := nextSeq ▸ list ▸ history ▸ h.next
  off := fun off => list ▸ h.off (motion off)
  granted := granted ▸ list ▸ h.granted
  written := written ▸ granted ▸ h.written

/-- Nothing published and nothing in the history. -/
theorem Publication.OrderOk.empty {p : Publication} {m : MotionState} (list : p.list = []) (history : p.history = [])
    (granted : p.headGranted = false) (written : p.headWritten = false) : p.OrderOk m where
  increasing := by rw [list, history]; exact List.Pairwise.nil
  next := fun _ _ => by rw [list, history]; exact fun _ mem => absurd mem List.not_mem_nil
  off := fun _ => list
  granted := fun g => absurd (granted.symm.trans g) (by decide)
  written := fun w => absurd (written.symm.trans w) (by decide)

theorem nextSequence_above {q n : Word} (h : nextSequence q = some n) : q < n := by
  unfold nextSequence at h
  split at h
  · cases h
  · rename_i last
    cases h
    rw [BitVec.lt_def, BitVec.toNat_add]
    have bound := q.isLt
    have below : q.toNat ≠ 4294967295 := fun e => last (BitVec.eq_of_toNat_eq e)
    have one : (1 : Word).toNat = 1 := rfl
    omega

/-- The record kept when a full list loses one: the head stays when its writes are under way. -/
theorem Publication.append_list (p : Publication) (r : PoseRecord) :
    ∃ kept, (p.append r).list = kept ++ [r] ∧ kept.Sublist p.list ∧
      (p.headGranted = true → p.list ≠ [] → kept.head? = p.list.head?) := by
  unfold Publication.append
  dsimp only
  split
  · exact ⟨p.list, rfl, List.Sublist.refl _, fun _ _ => rfl⟩
  · refine ⟨_, rfl, List.eraseIdx_sublist _ _, fun granted nonempty => ?_⟩
    obtain ⟨first, rest, list⟩ := List.exists_cons_of_ne_nil nonempty
    simp [granted, list]

/-- A record behind everything joins the list, and the next sequence follows it. -/
theorem Publication.OrderOk.append {p : Publication} {m n : MotionState} (h : p.OrderOk m) (running : n ≠ .off) {q : Word}
    {r : PoseRecord} (next : p.nextSeq = some q) (sequence : r.sequence = q) :
    Publication.OrderOk { p.append r with nextSeq := nextSequence q } n := by
  obtain ⟨kept, list, sub, _⟩ := p.append_list r
  have below : ∀ x ∈ p.history ++ kept, x.sequence < q := fun x mem =>
    h.next q next x (((List.Sublist.refl _).append sub).subset mem)
  refine ⟨?_, fun n next' => ?_, fun off => absurd off running, fun _ => ?_, h.written⟩
  · dsimp only
    rw [list, ← List.append_assoc]
    refine List.pairwise_append.mpr ⟨h.increasing.sublist ((List.Sublist.refl _).append sub), List.pairwise_singleton _ _, ?_⟩
    intro a mem b here
    rw [List.mem_singleton.mp here, sequence]
    exact below a mem
  · have after := nextSequence_above next'
    dsimp only
    rw [list, ← List.append_assoc]
    intro x mem
    rcases List.mem_append.mp mem with old | new
    · exact BitVec.lt_trans (below x old) after
    · rw [List.mem_singleton.mp new, sequence]
      exact after
  · dsimp only
    rw [list]
    simp

/-- The head of the list moves to the end of the history. -/
theorem Publication.OrderOk.moved {p : Publication} {m : MotionState} (h : p.OrderOk m) {r : PoseRecord}
    (head : p.list.head? = some r) : (p.written r).OrderOk m := by
  obtain ⟨rest, list⟩ : ∃ rest, p.list = r :: rest := by
    cases list : p.list with
    | nil => rw [list] at head; cases head
    | cons a rest => rw [list] at head; cases head; exact ⟨rest, rfl⟩
  have sub : ((p.written r).history ++ (p.written r).list).Sublist (p.history ++ p.list) := by
    have kept : (if p.history.length < Config.historyLimit then p.history else p.history.tail).Sublist p.history := by
      split
      · exact List.Sublist.refl _
      · exact List.tail_sublist _
    simp only [Publication.written, enterHistory, list, List.tail_cons, List.append_assoc, List.singleton_append]
    exact kept.append (List.Sublist.refl _)
  refine ⟨h.increasing.sublist sub, fun q next x mem => h.next q next x (sub.subset mem), fun off => ?_, nofun, nofun⟩
  have none_there := h.off off
  rw [list] at none_there
  cases none_there

/-- MOTION_START begins a new run at sequence 1 with nothing published (R59, R76). -/
theorem Publication.OrderOk.started {p : Publication} (h : p.OrderOk .off) : p.started.OrderOk .running := by
  have list := h.off rfl
  refine ⟨?_, fun q _ => ?_, nofun, h.granted, h.written⟩
  · simp only [Publication.started, list]
    exact List.Pairwise.nil
  · simp only [Publication.started, list]
    exact fun _ mem => absurd mem List.not_mem_nil

/-! ### The ring writes at the port -/

/-- An access that writes the pose ring or its control words. -/
def AccessKind.ring : AccessKind → Bool
  | .ringRecord | .ringControl _ => true
  | _ => false

/-- A live ring write at the port was there before. -/
def RingFrom (before after : Option Access) : Prop :=
  ∀ a, after = some a → a.live = true → a.kind.ring = true → before = some a

theorem RingFrom.same {p q : Option Access} (h : q = p) : RingFrom p q := fun _ there _ _ => h ▸ there

theorem RingFrom.free (p : Option Access) : RingFrom p none := nofun

theorem RingFrom.other (p : Option Access) {a : Access} (h : a.kind.ring = false) : RingFrom p (some a) := fun b there _ ring => by
  cases there
  exact absurd (h.symm.trans ring) (by decide)

theorem RingFrom.kept {p q : Option Access} (h : PortKept p q) : RingFrom p q := by
  rcases h with same | ⟨a, before, after⟩
  · exact .same same
  · intro b there live _
    rw [after] at there
    cases there
    cases live

theorem State.markLate_ring (s : State) : RingFrom s.port s.markLate.port := by
  intro a there live ring
  simp only [State.markLate, Option.map_eq_some_iff] at there
  obtain ⟨b, before, made⟩ := there
  split at made
  · subst made; cases ring
  · rw [before, made]

theorem Publication.RingOk.of_eq {p q : Publication} {before after : Option Access} (h : p.RingOk before)
    (granted : q.headGranted = p.headGranted) (head : q.list.head? = p.list.head?) (port : RingFrom before after) :
    q.RingOk after where
  record a there live kind := granted ▸ h.record a (port a there live (by rw [kind]; rfl)) live kind
  control a r there live kind := by
    rw [granted, head]
    exact h.control a r (port a there live (by rw [kind]; rfl)) live kind

/-- With no live ring write at the port there is nothing to keep. -/
theorem Publication.RingOk.of_none (p : Publication) {after : Option Access} (port : RingFrom none after) : p.RingOk after where
  record a there live kind := by cases port a there live (by rw [kind]; rfl)
  control a r there live kind := by cases port a there live (by rw [kind]; rfl)

/-- A motion access that is dropped is no live ring write any more (R42, R60, R77). -/
theorem State.dropAccess_ring (s : State) (p : AccessKind → Bool) (drops : ∀ k : AccessKind, k.ring = true → p k = true) :
    RingFrom none (s.dropAccess p).port := by
  intro a there live ring
  unfold State.dropAccess at there
  split at there
  · split at there
    · cases there; cases live
    · rename_i b port kept
      rw [port] at there
      cases there
      exact absurd (drops _ ring) kept
  · rename_i port
    rw [port] at there
    cases there

theorem Service.inboundOk_of_ne {x : Service} (h : ∀ a, x ≠ .presented a) : x.inboundOk := fun a e => absurd e (h a)

theorem serviceOf_inboundOk (events : List (Watched × Word)) : (serviceOf events).inboundOk := by
  unfold serviceOf
  split <;> exact Service.inboundOk_of_ne nofun

/-- A WRITE taken leaves the service as it was, or presents the access of the inbound client. -/
theorem State.takeWrite_inboundOk (s : State) (addr : Word) (len : Nat) (data : List Byte) (h : s.tiu.service.inboundOk) :
    (s.takeWrite addr len data).tiu.service.inboundOk := by
  unfold State.takeWrite
  dsimp only
  split
  · simpa using h
  · rintro a ⟨⟩
    rfl

/-- Only the motion client writes the ring. -/
theorem AccessKind.ring_client {k : AccessKind} (h : k.client ≠ .motion) : k.ring = false := by
  cases k <;> first | rfl | exact absurd rfl h

/-! ### Every step -/

theorem State.PosesOk.of_eq {s u : State} (h : s.PosesOk) (list : u.mu.pub.list = s.mu.pub.list)
    (history : u.mu.pub.history = s.mu.pub.history) (nextSeq : u.mu.pub.nextSeq = s.mu.pub.nextSeq)
    (granted : u.mu.pub.headGranted = s.mu.pub.headGranted) (written : u.mu.pub.headWritten = s.mu.pub.headWritten)
    (motion : u.mu.motion = .off → s.mu.motion = .off) (port : RingFrom s.port u.port)
    (service : u.tiu.service = s.tiu.service) : u.PosesOk := by
  rw [State.posesOk_iff] at h ⊢
  obtain ⟨order, ring, inbound⟩ := h
  exact ⟨order.of_eq list history nextSeq granted written motion, ring.of_eq granted (by rw [list]) port, service ▸ inbound⟩

/-- The motion client's due record is the head of the list; its control word comes after its record (R67, R68). -/
theorem Publication.due_ring {p : Publication} {r : PoseRecord} :
    (p.due = some (.ringRecord r) → p.list.head? = some r) ∧
    (p.due = some (.ringControl r) → p.list.head? = some r ∧ p.headWritten = true) := by
  unfold Publication.due
  split
  · simp
  · split
    · simp
    · split
      · simp
      · split
        · simp
        · split
          · simp
          · split
            · rename_i list written
              simp [list, written]
            · rename_i list _
              simp [list]

theorem Grant.keeps_posesOk {s u : State} (g : Grant s u) (h : s.PosesOk) : u.PosesOk := by
  cases g with
  | audio free a rest =>
    exact h.of_eq rfl rfl rfl rfl rfl id (.other _ (by unfold Au.access; split <;> rfl)) rfl
  | copy free j =>
    exact h.of_eq rfl rfl rfl rfl rfl id (.other _ (by unfold Job.nextAccess; split <;> rfl)) rfl
  | housekeeping free w due =>
    cases w with
    | commandRecord => exact h.of_eq rfl rfl rfl rfl rfl id (.same rfl) rfl
    | restart step => exact h.of_eq rfl rfl rfl rfl rfl id (.other _ (by rw [s.restartAccess_kind step]; rfl)) rfl
    | _ => exact h.of_eq rfl rfl rfl rfl rfl id (.other _ rfl) rfl
  | motion free w due =>
    cases w with
    | ringRecord r =>
      have head := Publication.due_ring.1 due
      rw [State.posesOk_iff] at h ⊢
      obtain ⟨order, _, inbound⟩ := h
      have nonempty : s.mu.pub.list ≠ [] := fun none_there => by rw [none_there] at head; cases head
      refine ⟨⟨order.increasing, order.next, order.off, fun _ => nonempty, fun _ => rfl⟩, ⟨fun _ _ _ _ => rfl, ?_⟩, inbound⟩
      rintro a x ⟨⟩ _ ⟨⟩
    | ringControl r =>
      obtain ⟨head, written⟩ := Publication.due_ring.2 due
      rw [State.posesOk_iff] at h ⊢
      obtain ⟨order, _, inbound⟩ := h
      refine ⟨order, ⟨fun _ _ _ _ => order.written written, ?_⟩, inbound⟩
      rintro a x ⟨⟩ _ ⟨⟩
      exact ⟨order.written written, head⟩
    | _ => exact h.of_eq rfl rfl rfl rfl rfl id (.other _ rfl) rfl

theorem Effect.keeps_posesOk {t : Time} {s u : State} (e : Effect t s u) (h : s.PosesOk) : u.PosesOk := by
  cases e with
  | granted u g => exact g.keeps_posesOk (h.of_eq rfl rfl rfl rfl rfl id (.same rfl) rfl)
  | inboundWriteDone =>
    rw [State.posesOk_iff] at h ⊢
    exact ⟨h.1, h.2.1.of_eq rfl rfl (.free _), serviceOf_inboundOk _⟩
  | inboundReadDone =>
    rw [State.posesOk_iff] at h ⊢
    refine ⟨h.1, h.2.1.of_eq rfl rfl (.free _), ?_⟩
    dsimp only
    split <;> exact Service.inboundOk_of_ne nofun
  | linkUp => exact h.of_eq rfl rfl rfl rfl rfl id (.same rfl) (by split <;> rfl)
  | linkDown => exact h.of_eq rfl rfl rfl rfl rfl id (.same rfl) (by simp)
  | write up addr len data =>
    refine h.of_eq (by simp) (by simp) (by simp) (by simp) (by simp) (by simp) (.same (by simp)) ?_
    rcases State.arriveWrite_tiu { s with now := t } addr len data with same | ⟨_, joins⟩
    · rw [same]
    · rw [joins]; simp
  | read up addr len tag =>
    refine h.of_eq (by simp) (by simp) (by simp) (by simp) (by simp) (by simp) (.same (by simp)) ?_
    rcases State.arriveRead_tiu { s with now := t } addr len tag with ⟨o, _, refused⟩ | ⟨_, _, joins⟩
    · rw [refused]; simp
    · rw [joins]; simp
  | takeWrite addr len data rest queue idle =>
    rw [State.posesOk_iff] at h ⊢
    refine ⟨by simpa using h.1, by simpa using h.2.1, ?_⟩
    exact State.takeWrite_inboundOk _ addr len data (by simpa using h.2.2)
  | takeRead addr len tag rest queue idle =>
    rw [State.posesOk_iff] at h ⊢
    refine ⟨by simpa using h.1, by simpa using h.2.1, ?_⟩
    rintro a ⟨⟩
    rfl
  | commandProducer _ v rest raising | noticeConsumer _ v rest raising | poseHold _ v rest raising
  | playbackProducer _ v rest raising | captureConsumer _ v rest raising | cueRequest _ v rest raising
  | submitWord _ _ v rest raising =>
    have event : State.PosesOk { s with now := t, tiu.service := serviceOf rest } := by
      rw [State.posesOk_iff] at h ⊢
      exact ⟨h.1, h.2.1, serviceOf_inboundOk rest⟩
    exact event.of_eq (by simp) (by simp) (by simp) (by simp) (by simp) (by simp) (.same (by simp)) (by simp)
  | restart r =>
    rw [State.posesOk_iff] at h ⊢
    refine ⟨by simpa using .empty rfl rfl rfl rfl, .of_none _ ?_, by simpa using h.2.2⟩
    exact State.dropAccess_ring _ _ fun k ring => by cases k <;> first | rfl | cases ring
  | motionStart r rate taking layout off =>
    rw [State.posesOk_iff] at h ⊢
    refine ⟨?_, ?_, by simpa using h.2.2⟩
    · simpa using (off ▸ h.1 : s.mu.pub.OrderOk .off).started
    · simpa using h.2.1.of_eq (q := s.mu.pub.started) rfl rfl (.same rfl)
  | motionStop r =>
    rw [State.posesOk_iff] at h ⊢
    refine ⟨by simpa using .empty rfl rfl rfl rfl, .of_none _ ?_, by simpa using h.2.2⟩
    rw [State.finishTaking_port]
    exact State.dropAccess_ring _ _ fun k ring => by cases k <;> first | rfl | cases ring
  | sampleTaken reading time =>
    rcases State.takeReading_pub { s with now := t, mu.sensor.busy := none } reading time with same | ⟨q, r, next, sequence, joins⟩
    · exact h.of_eq (by simp [same]) (by simp [same]) (by simp [same]) (by simp [same]) (by simp [same]) (by simp)
        (.same (by simp)) (by simp)
    · rw [State.posesOk_iff] at h ⊢
      obtain ⟨order, ring, inbound⟩ := h
      refine ⟨?_, ?_, by simpa using inbound⟩
      · have after := order.append (n := .running) nofun next sequence
        simpa [joins] using after
      · obtain ⟨kept, list, _, head⟩ := s.mu.pub.append_list r
        have front : s.mu.pub.headGranted = true → (kept ++ [r]).head? = s.mu.pub.list.head? := fun granted => by
          obtain ⟨first, rest, there⟩ := List.exists_cons_of_ne_nil (order.granted granted)
          have same := head granted (order.granted granted)
          rw [there, List.head?_cons] at same ⊢
          rw [List.head?_append, same, Option.some_or]
        refine ⟨fun a there live kind => ?_, fun a x there live kind => ?_⟩
        · simpa [joins] using ring.record a (by simpa using there) live kind
        · obtain ⟨granted, first⟩ := ring.control a x (by simpa using there) live kind
          simpa [joins, list, granted, front granted] using first
  | stalled start running =>
    exact h.of_eq (by simp) (by simp) (by simp) (by simp) (by simp) (by simp) (.same (by simp)) (by simp)
  | ringWritten a r port kind live inside =>
    rw [State.posesOk_iff] at h ⊢
    obtain ⟨order, ring, inbound⟩ := h
    obtain ⟨_, head⟩ := ring.control a r port live kind
    refine ⟨by simpa using order.moved head, .of_none _ (by simpa using .free _), by simpa using inbound⟩
  | recordWritten a port kind live inside =>
    rw [State.posesOk_iff] at h ⊢
    obtain ⟨order, ring, inbound⟩ := h
    have granted := ring.record a port live kind
    exact ⟨⟨order.increasing, order.next, order.off, order.granted, fun _ => granted⟩, .of_none _ (.free _), inbound⟩
  | bootNext a next port kind inside nextKind =>
    exact h.of_eq rfl rfl rfl rfl rfl id (.other _ (AccessKind.ring_client (by rw [nextKind]; decide))) rfl
  | bootRecord flash free access kind =>
    exact h.of_eq rfl rfl rfl rfl rfl id (.other _ (by rw [kind]; rfl)) rfl
  | rampEnds | frameBoundary =>
    exact h.of_eq (by simp) (by simp) (by simp) (by simp) (by simp) (by simp) (.kept (State.boundary_kept _)) (by simp)
  | blockBoundary =>
    exact h.of_eq (by simp) (by simp) (by simp) (by simp) (by simp) (by simp)
      (by simpa [State.blockBoundary] using { s with now := t }.markLate_ring) (by simp)
  | exchangeWritten => exact h.of_eq rfl rfl rfl rfl rfl id (.free _) rfl
  | tableRead | halvesDone | halfDone | restartDone | restartStep | consoleHalfRead | pixelsRead | segmentHeld | readAborts
  | segmentWritten | cueRefused | cueStarts | captureWritten | audioRead | noticeWritten | noticesShown | bootFlash
  | bootComplete | completes =>
    exact h.of_eq (by simp) (by simp) (by simp) (by simp) (by simp) (by simp) (by simpa using .free _) (by simp)
  | _ => exact h.of_eq (by simp) (by simp) (by simp) (by simp) (by simp) (by simp) (.same (by simp)) (by simp)

theorem State.PosesOk.settle {s : State} (h : s.PosesOk) : s.settle.PosesOk := by
  have settled {v : State} (arbitrated : s.arbitrate = v) (ok : v.PosesOk) : s.settle.PosesOk := by
    subst arbitrated
    exact ok.of_eq (by simp [State.settle]) (by simp [State.settle]) (by simp [State.settle]) (by simp [State.settle])
      (by simp [State.settle]) (by simp [State.settle]) (.same (by simp [State.settle])) (by simp [State.settle])
  cases port : s.port with
  | some a => exact settled (by simp only [State.arbitrate, port]) h
  | none =>
    cases scan : s.scanWaiting with
    | some a =>
      refine settled (by simp only [State.arbitrate, port, scan]; rfl) ?_
      have other : a.kind.ring = false := AccessKind.ring_client (by rw [State.scanWaiting_client scan]; decide)
      exact h.of_eq rfl rfl rfl rfl rfl id (.other _ other) rfl
    | none =>
      by_cases grants : s.au.waiting = [] ∧ ∃ a, s.tiu.service = .presented a
      · obtain ⟨quiet, a, presented⟩ := grants
        refine settled (by simp only [State.arbitrate, port, scan, quiet, presented]; rfl) ?_
        have other : a.kind.ring = false := AccessKind.ring_client (by rw [h.inbound a presented]; decide)
        rw [State.posesOk_iff] at h ⊢
        exact ⟨h.1, h.2.1.of_eq rfl rfl (.other _ other), Service.inboundOk_of_ne nofun⟩
      · refine settled (v := s) ?_ h
        simp only [State.arbitrate, port, scan]
        split
        · rename_i a quiet presented
          exact absurd ⟨quiet, a, presented⟩ grants
        · rfl

theorem State.reset_posesOk : State.reset.PosesOk :=
  State.reset.posesOk_iff.mpr ⟨.empty rfl rfl rfl rfl, .of_none _ nofun, Service.inboundOk_of_ne nofun⟩

theorem State.poweredOn_posesOk (s : State) : s.poweredOn.PosesOk :=
  s.poweredOn.posesOk_iff.mpr ⟨.empty rfl rfl rfl rfl, .of_none _ (.other _ rfl), Service.inboundOk_of_ne nofun⟩

end Sys2Proof.Machine

open Sys2Proof Sys2Proof.Machine

/-- Settles O54: each effect of a step keeps the order, and the port is granted to no ring write but by the motion client. -/
theorem poseOrderKept : Obligations.PoseOrderKept := by
  unfold Obligations.PoseOrderKept
  intro s s' h run
  exact step_keeps (P := State.PosesOk) (fun _ _ h => h.of_eq rfl rfl rfl rfl rfl id (.same rfl) rfl)
    (fun _ _ g h => g.keeps_posesOk h) (fun _ _ _ e h => e.keeps_posesOk h) (fun _ h => h.settle)
    (fun v _ => v.poweredOn_posesOk) h run

end

section
/-! SUPPORT. A state in which the request in service has presented an access of the motion client: only reachable states keep such an
access out of service, and the statement about the held front record does not ask for that. -/

namespace Sys2Proof.Machine

/-- The link is up, the pose hold is set, and what is presented for a request is a write of the motion client to the front record. -/
def misplacedPresentation : State :=
  { State.reset with
    port := none
    tiu := { Tiu.initial with link := .up, service := .presented ⟨.indicator, 0x1C0, .write (List.replicate 4 (some 0)), true⟩ }
    mu.pub.exchange.hold := true }

theorem misplacedPresentation_layoutOk : misplacedPresentation.LayoutOk where
  sound := nofun
  rings := nofun
  bases := nofun
  display := fun _ => rfl
  streams := fun _ => ⟨rfl, rfl⟩
  motion := fun _ => ⟨rfl, rfl, rfl, nofun⟩

end Sys2Proof.Machine

open Sys2Proof Sys2Proof.Machine

/-- Refutes O56: a damaged message settles the port, which is granted to whatever is presented, here a write of the motion client to the
front record; that what is presented is of the inbound client is not among the hypotheses. -/
theorem not_heldFrontKept : ¬ Obligations.HeldFrontKept := by
  unfold Obligations.HeldFrontKept
  intro h
  have clear := h.2.1 (.badMessage 0) misplacedPresentation _ ⟨.indicator, 0x1C0, .write (List.replicate 4 (some 0)), true⟩
    misplacedPresentation_layoutOk rfl rfl rfl rfl rfl rfl
  exact absurd clear (by decide)

end

section
/-! SUPPORT. What each operation makes of the HKU's command work: only a taking and its end, the table read and RESTART change it
(R35 to R37, R44). -/

namespace Sys2Proof.Machine

section
variable (s : State)

@[simp] theorem State.posts_work (l : List Notice) :
    (l.foldl State.post s).hku.work = s.hku.work := by
  induction l generalizing s with
  | nil => rfl
  | cons n rest ih => rw [List.foldl_cons, ih]; simp

@[simp] theorem State.compareProducer_work :
    s.compareProducer.hku.work = s.hku.work := by
  unfold State.compareProducer; dsimp only
  split
  · simp
  · split <;> simp

@[simp] theorem State.finishTaking_work : s.finishTaking.hku.work = .idle := by
  unfold State.finishTaking; dsimp only; split <;> simp

@[simp] theorem State.finishRestart_work : s.finishRestart.hku.work = .idle := by
  unfold State.finishRestart; dsimp only; split <;> simp

@[simp] theorem State.refuse_work (r : Record) (x : Reason) : (s.refuse r x).hku.work = .idle := by simp [State.refuse]

@[simp] theorem State.checkTable_awaits (r : Record) (l : Layout) : (s.checkTable r l).hku.awaitsTable = false := by
  unfold State.checkTable; split <;> simp [State.applyLayout, Hku.awaitsTable]

@[simp] theorem State.takeWrite_work (addr : Word) (len : Nat) (data : List Byte) :
    (s.takeWrite addr len data).hku.work = s.hku.work := by
  have noted (n : Nat) : (s.noteRefused addr n).hku.work = s.hku.work := by
    unfold State.noteRefused; dsimp only
    split
    · rfl
    · split <;> simp
  unfold State.takeWrite; dsimp only; split <;> exact noted _

@[simp] theorem State.discardMessage_work : s.discardMessage.hku.work = s.hku.work := rfl

@[simp] theorem State.showNotices_work (w : Word) : (s.showNotices w).hku.work = s.hku.work := rfl

@[simp] theorem State.arriveWrite_work (addr : Word) (len : Nat) (data : List Byte) :
    (s.arriveWrite addr len data).hku.work = s.hku.work := by
  unfold State.arriveWrite
  split
  · simp
  · split <;> simp

@[simp] theorem State.takeProducer_work (v : Word) :
    (s.takeProducer v).hku.work = s.hku.work := by
  unfold State.takeProducer; dsimp only; split <;> simp

@[simp] theorem State.takeCueRequest_work (v : Word) :
    (s.takeCueRequest v).hku.work = s.hku.work := by
  unfold State.takeCueRequest; dsimp only
  split
  · split <;> simp
  · rfl

/-! #### Power -/

@[simp] theorem State.takeCeiling_work (c : Fin 8) :
    (s.takeCeiling c).hku.work = s.hku.work := by
  unfold State.takeCeiling; dsimp only; split <;> simp

@[simp] theorem State.testVoltage_work (v i : Nat) :
    (s.testVoltage v i).hku.work = s.hku.work := by
  unfold State.testVoltage; dsimp only
  split
  · split <;> simp
  · rfl

@[simp] theorem State.stepLevel_work (l : Fin 8) (c : LevelCause) :
    (s.stepLevel l c).hku.work = s.hku.work := by simp [State.stepLevel]

@[simp] theorem State.overWindow_work : s.overWindow.hku.work = s.hku.work := by
  unfold State.overWindow
  split
  · rfl
  · split <;> simp

@[simp] theorem State.underWindow_work : s.underWindow.hku.work = s.hku.work := by
  unfold State.underWindow; dsimp only; split <;> simp

@[simp] theorem State.endWindow_work : s.endWindow.hku.work = s.hku.work := by
  unfold State.endWindow; dsimp only
  split
  · simp
  · split <;> simp

@[simp] theorem State.takeSample_work (r : MonitorReading) :
    (s.takeSample r).hku.work = s.hku.work := by
  unfold State.takeSample; dsimp only; split <;> simp

/-! #### Motion and copy -/

@[simp] theorem State.takeReading_work (r : SensorReading) (t : Time) :
    (s.takeReading r t).hku.work = s.hku.work := by
  unfold State.takeReading; dsimp only
  by_cases stalled : s.mu.motion = .stalled <;> simp [stalled]

@[simp] theorem State.noteRing_work (n : Nat) (r : PoseRecord) :
    (s.noteRing n r).hku.work = s.hku.work := by
  unfold State.noteRing; dsimp only
  split <;> split <;> simp

@[simp] theorem State.closeJob_work (j : Job) (o : JobOutcome) (n : Nat) :
    (s.closeJob j o n).hku.work = s.hku.work := by simp [State.closeJob]

@[simp] theorem State.endRunning_work (j : Job) (o : JobOutcome) (n : Nat) :
    (s.endRunning j o n).hku.work = s.hku.work := by simp [State.endRunning]

@[simp] theorem State.abortJob_work (i : Nat) (j : Job) :
    (s.abortJob i j).hku.work = s.hku.work := by
  unfold State.abortJob
  split
  · simp
  · split <;> simp

@[simp] theorem State.copyWritten_work (j : Job) (n : Nat) :
    (s.copyWritten j n).hku.work = s.hku.work := by
  unfold State.copyWritten; dsimp only
  split
  · simp
  · split <;> simp

/-! #### Display -/

@[simp] theorem State.noteStale_work (k : Fin 4) (h : ConsoleHalf) (b : Bool) :
    (s.noteStale k h b).hku.work = s.hku.work := by
  unfold State.noteStale; dsimp only; split <;> simp

@[simp] theorem State.showSlot_work (k : Fin 4) (h : ConsoleHalf) :
    (s.showSlot k h).hku.work = s.hku.work := by simp [State.showSlot]

@[simp] theorem State.stopBoundary_work : s.stopBoundary.hku.work = s.hku.work := by
  simp [State.stopBoundary]

@[simp] theorem State.skips_work (l : List (Fin 4)) :
    (l.foldl State.skipSlot s).hku.work = s.hku.work := by
  induction l generalizing s with
  | nil => rfl
  | cons k rest ih => rw [List.foldl_cons, ih]; simp [State.skipSlot]

@[simp] theorem State.resumeContent_work (k : Fin 4) :
    (s.resumeContent k).hku.work = s.hku.work := by
  unfold State.resumeContent; split <;> simp

@[simp] theorem State.chooseBoundary_work (older : List (Fin 4)) (k : Fin 4) :
    (s.chooseBoundary older k).hku.work = s.hku.work := by
  simp [State.chooseBoundary]

@[simp] theorem State.repeatBoundary_work (k : Fin 4) :
    (s.repeatBoundary k).hku.work = s.hku.work := by
  unfold State.repeatBoundary; dsimp only; split <;> simp

@[simp] theorem State.blankBoundary_work : s.blankBoundary.hku.work = s.hku.work := by
  simp [State.blankBoundary]

@[simp] theorem State.loseContent_work (k : Fin 4) :
    (s.loseContent k).hku.work = s.hku.work := by simp [State.loseContent]

@[simp] theorem State.boundary_work : s.boundary.hku.work = s.hku.work := by
  unfold State.boundary
  split
  · simp
  · dsimp only
    split
    · simp
    · split <;> simp
    · simp

/-! #### Audio -/

@[simp] theorem State.settleOverrun_work : s.settleOverrun.hku.work = s.hku.work := by
  unfold State.settleOverrun; dsimp only; split <;> simp

@[simp] theorem State.settlePlayback_work :
    s.settlePlayback.1.hku.work = s.hku.work := by
  unfold State.settlePlayback
  generalize start : (if s.au.playbackStop then _ else s) = v
  have same : v.hku = s.hku := by subst start; split <;> rfl
  rw [← same]
  dsimp only
  split
  · split <;> simp
  · split <;> simp [State.playBlock]
  · split <;> simp [State.playBlock, State.starve]

@[simp] theorem State.endCue_work : s.endCue.hku.work = s.hku.work := by
  unfold State.endCue
  split
  · split <;> simp
  · rfl

@[simp] theorem State.settleCue_work : s.settleCue.1.hku.work = s.hku.work := by
  unfold State.settleCue; dsimp only; split <;> simp

@[simp] theorem State.recordBlock_work (g : Gathering) :
    (s.recordBlock g).1.hku.work = s.hku.work := by
  unfold State.recordBlock; dsimp only
  split
  · rfl
  · dsimp only; split <;> simp

@[simp] theorem State.settleCapture_work :
    s.settleCapture.1.hku.work = s.hku.work := by
  unfold State.settleCapture; dsimp only
  split
  · cases s.au.gathering <;> dsimp only <;> split <;> simp
  · rfl

@[simp] theorem State.blockBoundary_work :
    s.blockBoundary.hku.work = s.hku.work := by
  simp [State.blockBoundary, State.settleVolume]

end

end Sys2Proof.Machine
end

section
/-! SUPPORT. The slot records of the FCU: what the operations of a frame boundary, of a submission and of a job's end make of each slot
(R80 to R97, R127, R133), the present queue (R84) and the copy-pending counts (R83). -/

namespace Sys2Proof.Machine

/-! ### One slot record -/

theorem Fcu.update_slots (f : Fcu) (k : Fin 4) (g : Slot → Slot) (j : Fin 4) :
    (f.update k g).slots[j] = if j = k then g f.slots[j] else f.slots[j] := by
  simp only [Fcu.update, Fin.getElem_fin, Vector.getElem_set, Fin.val_inj]
  by_cases same : k = j
  · subst same; simp
  · simp [same, Ne.symm same]

@[simp] theorem Fcu.update_slots_same (f : Fcu) (k : Fin 4) (g : Slot → Slot) : (f.update k g).slots[k] = g f.slots[k] := by
  rw [Fcu.update_slots, if_pos rfl]

@[simp] theorem Fcu.update_rest (f : Fcu) (k : Fin 4) (g : Slot → Slot) :
    (f.update k g).queue = f.queue ∧ (f.update k g).display = f.display ∧ (f.update k g).stopPending = f.stopPending ∧
    (f.update k g).contentLost = f.contentLost ∧ (f.update k g).repeatLimit = f.repeatLimit ∧
    (f.update k g).boundary = f.boundary := ⟨rfl, rfl, rfl, rfl, rfl, rfl⟩

@[simp] theorem State.updateSlot_fcu (s : State) (k : Fin 4) (g : Slot → Slot) : (s.updateSlot k g).fcu = s.fcu.update k g := rfl

/-- The same change of several slot records. -/
def Fcu.updates (f : Fcu) (l : List (Fin 4)) (g : Slot → Slot) : Fcu := l.foldl (fun f k => f.update k g) f

@[simp] theorem Fcu.updates_nil (f : Fcu) (g : Slot → Slot) : f.updates [] g = f := rfl

@[simp] theorem Fcu.updates_cons (f : Fcu) (k : Fin 4) (l : List (Fin 4)) (g : Slot → Slot) :
    f.updates (k :: l) g = (f.update k g).updates l g := rfl

theorem Fcu.updates_eq (f : Fcu) (l : List (Fin 4)) (g : Slot → Slot) : f.updates l g = { f with slots := (f.updates l g).slots } := by
  induction l generalizing f with
  | nil => rfl
  | cons k l ih => rw [Fcu.updates_cons, ih]; rfl

theorem Fcu.updates_slots (f : Fcu) (l : List (Fin 4)) (once : l.Nodup) (g : Slot → Slot) (j : Fin 4) :
    (f.updates l g).slots[j] = if j ∈ l then g f.slots[j] else f.slots[j] := by
  induction l generalizing f with
  | nil => simp
  | cons k l ih =>
    obtain ⟨fresh, once⟩ := List.nodup_cons.mp once
    rw [Fcu.updates_cons, ih _ once, Fcu.update_slots]
    by_cases same : j = k
    · subst same; simp [fresh]
    · simp [same]

theorem mem_allSlots (k : Fin 4) : k ∈ allSlots := by revert k; decide

theorem allSlots_nodup : allSlots.Nodup := by decide

/-- No slot is in a state. -/
theorem Fcu.slotsIn_none (f : Fcu) (x : SlotState) : (f.slotsIn x).length = 0 ↔ ∀ k : Fin 4, f.slots[k].state ≠ x := by
  simp [Fcu.slotsIn, List.length_eq_zero_iff, List.filter_eq_nil_iff, mem_allSlots]

/-- One slot is in a state. -/
theorem Fcu.slotsIn_one (f : Fcu) (x : SlotState) :
    (f.slotsIn x).length = 1 ↔ ∃ k : Fin 4, ∀ j : Fin 4, f.slots[j].state = x ↔ j = k := by
  have inside (j : Fin 4) : j ∈ f.slotsIn x ↔ f.slots[j].state = x := by simp [Fcu.slotsIn, mem_allSlots]
  refine ⟨fun one => ?_, fun ⟨k, only⟩ => ?_⟩
  · obtain ⟨k, list⟩ := List.length_eq_one_iff.mp one
    exact ⟨k, fun j => by rw [← inside, list, List.mem_singleton]⟩
  · have same : (f.slotsIn x).Perm [k] := (List.perm_ext_iff_of_nodup (allSlots_nodup.filter _) (List.nodup_singleton k)).mpr
      fun j => by rw [← Fcu.slotsIn, inside, only, List.mem_singleton]
    rw [same.length_eq, List.length_singleton]

/-! ### The operations of a boundary -/

/-- The FCU when the previous SHOWING slot has become FREE with outcome SHOWN (R94). -/
def Fcu.showingFreed (f : Fcu) : Fcu :=
  match f.showingSlot with
  | some k => f.update k (·.freed .shown)
  | none => f

theorem State.releaseShowing_fcu (s : State) : s.releaseShowing.fcu = s.fcu.showingFreed := by
  unfold State.releaseShowing Fcu.showingFreed
  cases s.fcu.showingSlot <;> rfl

theorem State.skips_fcu (l : List (Fin 4)) (s : State) : (l.foldl State.skipSlot s).fcu = s.fcu.updates l (·.freed .skipped) := by
  induction l generalizing s with
  | nil => rfl
  | cons k l ih => rw [List.foldl_cons, ih]; rfl

theorem State.resumeContent_fcu (s : State) (k : Fin 4) : (s.resumeContent k).fcu = { s.fcu with contentLost := false } := by
  unfold State.resumeContent
  split
  · rfl
  · rename_i kept
    rw [← Bool.eq_false_iff.mpr kept]

theorem State.chooseBoundary_fcu (s : State) (older : List (Fin 4)) (k : Fin 4) : (s.chooseBoundary older k).fcu =
    { (s.fcu.updates older (·.freed .skipped)).showingFreed.update k (·.chosen s.now) with
      queue := [], display := .showing, contentLost := false } := by
  simp [State.chooseBoundary, State.resumeContent_fcu, State.releaseShowing_fcu, State.skips_fcu]

theorem State.showSlot_fcu (s : State) (k : Fin 4) (h : ConsoleHalf) :
    (s.showSlot k h).fcu = s.fcu.update k (·.withResults (s.results h)) := by
  simp [State.showSlot]

/-- A slot record that is repeated (R95). -/
def Slot.repeated (x : Slot) : Slot := { x with shown := x.shown + 1, flags.repeated := true, headerDue := true }

/-- The state in which a repeated slot's showing begins (R95, R102). -/
def State.repeating (s : State) (k : Fin 4) : State :=
  let s := s.updateSlot k Slot.repeated
  let s := { s with
    hku.counters.repeated := s.hku.counters.repeated + 1
    hku.counters.framesShown := s.hku.counters.framesShown + 1 }
  { s.endScan.beginFrame 0 with ssu.rowsDue := 1 }

@[simp] theorem State.repeating_fcu (s : State) (k : Fin 4) : (s.repeating k).fcu = s.fcu.update k Slot.repeated := by
  simp [State.repeating]

/-- A slot with its console half read is shown again; one without waits for it (log entry 18). -/
theorem State.repeatBoundary_eq (s : State) (k : Fin 4) : s.repeatBoundary k =
    match (s.repeating k).fcu.slots[k].half with
    | some h => (s.repeating k).showSlot k h
    | none => s.repeating k := rfl

theorem State.loseContent_fcu (s : State) (k : Fin 4) :
    (s.loseContent k).fcu = { s.fcu.update k (·.freed .shown) with display := .blank, contentLost := true } := rfl

theorem State.stopBoundary_fcu (s : State) : s.stopBoundary.fcu =
    { s.fcu with
      slots := s.fcu.slots.map Slot.stopped, queue := [], display := .off, stopPending := false, contentLost := false
      boundary := none } := by
  simp [State.stopBoundary]

end Sys2Proof.Machine
end

section
/-! SUPPORT. The present queue and the copy-pending counts at every step (R83, R84, R127, R134). -/

namespace Sys2Proof.Machine

/-! ### The present queue -/

/-- The present queue holds the QUEUED slots, each once, and the display shows exactly when a slot is SHOWING, one at most (R84). -/
structure Fcu.QueueOk (f : Fcu) : Prop where
  once : f.queue.Nodup
  queued : ∀ k : Fin 4, k ∈ f.queue ↔ f.slots[k].state = .queued
  showing : (f.slotsIn .showing).length = if f.display = .showing then 1 else 0

theorem State.slotsOk_iff (s : State) :
    s.SlotsOk ↔ s.fcu.QueueOk ∧ (s.hku.awaitsTable = true → s.fcu.display = .off) :=
  ⟨fun h => ⟨⟨h.once, h.queued, h.showing⟩, h.table⟩, fun ⟨q, table⟩ => ⟨q.once, q.queued, q.showing, table⟩⟩

/-- At most one slot is SHOWING. -/
theorem Fcu.QueueOk.unique {f : Fcu} (h : f.QueueOk) {i j : Fin 4} (first : f.slots[i].state = .showing)
    (second : f.slots[j].state = .showing) : i = j := by
  have count := h.showing
  split at count
  · obtain ⟨k, only⟩ := (f.slotsIn_one _).mp count
    rw [(only i).mp first, (only j).mp second]
  · exact absurd first ((f.slotsIn_none _).mp count i)

theorem Fcu.QueueOk.shows {f : Fcu} (h : f.QueueOk) {k : Fin 4} (showing : f.slots[k].state = .showing) : f.display = .showing := by
  by_contra dark
  have count := h.showing
  rw [if_neg dark] at count
  exact (f.slotsIn_none _).mp count k showing

theorem Fcu.QueueOk.of_states {f g : Fcu} (h : f.QueueOk) (states : ∀ k : Fin 4, g.slots[k].state = f.slots[k].state)
    (queue : g.queue = f.queue) (display : g.display = .showing ↔ f.display = .showing) : g.QueueOk where
  once := queue ▸ h.once
  queued k := by rw [queue, states, h.queued]
  showing := by
    have same : g.slotsIn .showing = f.slotsIn .showing := by unfold Fcu.slotsIn; simp only [states]
    rw [same, h.showing]
    simp only [display]

theorem Fcu.QueueOk.of_eq {f g : Fcu} (h : f.QueueOk) (slots : g.slots = f.slots) (queue : g.queue = f.queue)
    (display : g.display = .showing ↔ f.display = .showing) : g.QueueOk :=
  h.of_states (fun k => by rw [slots]) queue display

theorem Fcu.QueueOk.of_dark {f g : Fcu} (h : f.QueueOk) (slots : g.slots = f.slots) (queue : g.queue = f.queue)
    {x : DisplayState} (old : f.display = x) (dark : x ≠ .showing) (display : g.display ≠ .showing) : g.QueueOk :=
  h.of_eq slots queue (iff_of_false display (old ▸ dark))

theorem Fcu.QueueOk.update {f : Fcu} (h : f.QueueOk) (k : Fin 4) {g : Slot → Slot} (same : (g f.slots[k]).state = f.slots[k].state) :
    (f.update k g).QueueOk :=
  h.of_states (fun j => by
    rw [Fcu.update_slots]
    split
    · rename_i e; rw [e, same]
    · rfl) rfl Iff.rfl

/-- Every slot FREE, nothing queued, nothing shown. -/
theorem Fcu.QueueOk.empty {f : Fcu} (free : ∀ k : Fin 4, f.slots[k].state = .free) (queue : f.queue = [])
    (display : f.display ≠ .showing) : f.QueueOk where
  once := queue ▸ List.nodup_nil
  queued k := by rw [queue, free]; simp
  showing := by
    rw [if_neg display, Fcu.slotsIn_none]
    intro k
    rw [free]
    decide

/-- A slot that was in no use joins the queue, or the ones that wait for a copy (R82, R83). -/
theorem Fcu.QueueOk.enter {f : Fcu} (h : f.QueueOk) {k : Fin 4} {g : Slot → Slot} (old : f.slots[k].state = .free ∨ f.slots[k].state = .waiting)
    (new : (g f.slots[k]).state = .queued) : Fcu.QueueOk { f.update k g with queue := f.queue ++ [k] } where
  once := by
    have fresh : k ∉ f.queue := fun mem => by
      rw [h.queued] at mem
      rcases old with old | old <;> rw [mem] at old <;> cases old
    exact List.nodup_append.mpr ⟨h.once, List.nodup_singleton k, fun a mem b here => by
      rw [List.mem_singleton.mp here]
      rintro rfl
      exact fresh mem⟩
  queued j := by
    show j ∈ f.queue ++ [k] ↔ (f.update k g).slots[j].state = .queued
    rw [Fcu.update_slots, List.mem_append, List.mem_singleton]
    split
    · rename_i e; subst e; simp [-Fin.getElem_fin, new]
    · rename_i e; simp [-Fin.getElem_fin, e, h.queued]
  showing := by
    have same : Fcu.slotsIn { f.update k g with queue := f.queue ++ [k] } .showing = f.slotsIn .showing := by
      unfold Fcu.slotsIn
      refine List.filter_congr fun j _ => ?_
      show ((f.update k g).slots[j].state == _) = _
      rw [Fcu.update_slots]
      split
      · rename_i e; subst e
        rcases old with old | old <;> rw [new, old] <;> rfl
      · rfl
    rw [same]
    exact h.showing

theorem Fcu.QueueOk.submit {f : Fcu} (h : f.QueueOk) (k : Fin 4) (v : Word) : (f.submit k v).QueueOk := by
  unfold Fcu.submit
  split
  · rename_i free
    obtain ⟨_, free⟩ := free
    dsimp only
    split
    · rename_i none_pending
      exact h.enter (.inl free) (by simp [-Fin.getElem_fin, Slot.submitted, none_pending])
    · rename_i pending
      have waiting : (f.slots[k].submitted v).state = .waiting := by simp [-Fin.getElem_fin, Slot.submitted, pending]
      refine ⟨h.once, fun j => ?_, ?_⟩
      · rw [Fcu.update_slots]
        split
        · rename_i e; subst e
          have fresh := h.queued j
          rw [free] at fresh
          simpa [-Fin.getElem_fin, waiting] using fresh
        · exact h.queued j
      · have same : (f.update k (·.submitted v)).slotsIn .showing = f.slotsIn .showing := by
          unfold Fcu.slotsIn
          refine List.filter_congr fun j _ => ?_
          rw [Fcu.update_slots]
          split
          · rename_i e; subst e; rw [waiting, free]; rfl
          · rfl
        rw [same]
        exact h.showing
  · exact h

theorem Fcu.QueueOk.release {f : Fcu} (h : f.QueueOk) (k : Fin 4) : (f.release k).QueueOk := by
  unfold Fcu.release
  dsimp only
  split
  · rename_i ready
    exact h.enter (.inr ready.1) rfl
  · exact h.update k rfl

theorem Fcu.QueueOk.releases {f : Fcu} (h : f.QueueOk) (l : List (Fin 4)) : (l.foldl Fcu.release f).QueueOk := by
  induction l generalizing f with
  | nil => exact h
  | cons k l ih => exact ih (h.release k)

theorem Fcu.QueueOk.updates {f : Fcu} (h : f.QueueOk) (l : List (Fin 4)) {g : Slot → Slot} (same : ∀ x, (g x).state = x.state) :
    (f.updates l g).QueueOk := by
  induction l generalizing f with
  | nil => exact h
  | cons k l ih => exact ih (h.update k (same _))

/-! ### The boundary -/

/-- With at most one slot SHOWING, the previous SHOWING slot is every SHOWING one. -/
theorem Fcu.showingFreed_slots (f : Fcu) (unique : ∀ i j : Fin 4, f.slots[i].state = .showing → f.slots[j].state = .showing → i = j)
    (j : Fin 4) : f.showingFreed.slots[j] = if f.slots[j].state = .showing then f.slots[j].freed .shown else f.slots[j] := by
  unfold Fcu.showingFreed Fcu.showingSlot
  split
  · rename_i k found
    have showing : f.slots[k].state = .showing := by simpa using List.find?_some found
    rw [Fcu.update_slots]
    by_cases same : j = k
    · subst same; simp [-Fin.getElem_fin, showing]
    · rw [if_neg same, if_neg fun other => same (unique j k other showing)]
  · rename_i missing
    have dark := List.find?_eq_none.mp missing j (mem_allSlots j)
    rw [if_neg (by simpa using dark)]

/-- What a boundary that chooses makes of each slot (R94). -/
theorem State.chooseBoundary_slots {s : State} (h : s.fcu.QueueOk) {older : List (Fin 4)} {k : Fin 4} (queue : s.fcu.queue = older ++ [k])
    (j : Fin 4) : (s.chooseBoundary older k).fcu.slots[j] =
      if j = k then s.fcu.slots[j].chosen s.now
      else if j ∈ older then s.fcu.slots[j].freed .skipped
      else if s.fcu.slots[j].state = .showing then s.fcu.slots[j].freed .shown
      else s.fcu.slots[j] := by
  have once : (older ++ [k]).Nodup := queue ▸ h.once
  have queued (i : Fin 4) : i ∈ older ∨ i = k ↔ s.fcu.slots[i].state = .queued := by
    rw [← h.queued, queue, List.mem_append, List.mem_singleton]
  have newest : k ∉ older := fun mem => List.disjoint_of_nodup_append once mem (List.mem_singleton_self k)
  have skipped (i : Fin 4) := s.fcu.updates_slots older once.of_append_left (·.freed .skipped) i
  have unique (i j : Fin 4) (first : (s.fcu.updates older (·.freed .skipped)).slots[i].state = .showing)
      (second : (s.fcu.updates older (·.freed .skipped)).slots[j].state = .showing) : i = j := by
    rw [skipped] at first second
    split at first
    · cases first
    · split at second
      · cases second
      · exact h.unique first second
  rw [State.chooseBoundary_fcu]
  show ((s.fcu.updates older (·.freed .skipped)).showingFreed.update k (·.chosen s.now)).slots[j] = _
  rw [Fcu.update_slots, Fcu.showingFreed_slots _ unique, skipped]
  by_cases chosen : j = k
  · subst chosen
    have state := (queued j).mp (.inr rfl)
    simp [-Fin.getElem_fin, newest, state]
  · by_cases skips : j ∈ older <;> simp [-Fin.getElem_fin, chosen, skips, Slot.freed]

theorem Fcu.QueueOk.choose {s : State} (h : s.fcu.QueueOk) {older : List (Fin 4)} {k : Fin 4} (queue : s.fcu.queue = older ++ [k]) :
    (s.chooseBoundary older k).fcu.QueueOk := by
  have empty : (s.chooseBoundary older k).fcu.queue = [] := by rw [State.chooseBoundary_fcu]
  have shows : (s.chooseBoundary older k).fcu.display = .showing := by rw [State.chooseBoundary_fcu]
  have queued (j : Fin 4) : s.fcu.slots[j].state = .queued ↔ j ∈ older ∨ j = k := by
    rw [← h.queued, queue, List.mem_append, List.mem_singleton]
  refine ⟨empty ▸ List.nodup_nil, fun j => ?_, ?_⟩
  · rw [empty, State.chooseBoundary_slots h queue]
    simp only [List.not_mem_nil, false_iff]
    split
    · simp [Slot.chosen]
    · split
      · simp [Slot.freed]
      · split
        · simp [Slot.freed]
        · simp [-Fin.getElem_fin, *]
  · rw [if_pos shows, Fcu.slotsIn_one]
    refine ⟨k, fun j => ?_⟩
    rw [State.chooseBoundary_slots h queue]
    split
    · rename_i e; simp [Slot.chosen, e]
    · rename_i other
      split
      · simp [Slot.freed, other]
      · split <;> simp [-Fin.getElem_fin, Slot.freed, *]

theorem Fcu.QueueOk.stop {s : State} : s.stopBoundary.fcu.QueueOk := by
  rw [State.stopBoundary_fcu]
  refine .empty (fun k => ?_) rfl nofun
  simp only [Fin.getElem_fin, Vector.getElem_map]
  unfold Slot.stopped
  split <;> simp [Slot.freed, *]

theorem Fcu.QueueOk.repeat {s : State} (h : s.fcu.QueueOk) (k : Fin 4) : (s.repeatBoundary k).fcu.QueueOk := by
  have repeated : (s.repeating k).fcu.QueueOk := by
    rw [State.repeating_fcu]
    exact h.update k rfl
  rw [State.repeatBoundary_eq]
  split
  · rw [State.showSlot_fcu]
    exact repeated.update k rfl
  · exact repeated

theorem Fcu.QueueOk.lose {s : State} (h : s.fcu.QueueOk) {k : Fin 4} (showing : s.fcu.slots[k].state = .showing) :
    (s.loseContent k).fcu.QueueOk := by
  rw [State.loseContent_fcu]
  have slots (j : Fin 4) := Fcu.update_slots s.fcu k (·.freed .shown) j
  refine ⟨h.once, fun j => ?_, ?_⟩
  · show j ∈ s.fcu.queue ↔ (s.fcu.update k (·.freed .shown)).slots[j].state = .queued
    rw [slots, h.queued]
    split
    · rename_i e; subst e; simp [-Fin.getElem_fin, showing, Slot.freed]
    · rfl
  · rw [if_neg nofun, Fcu.slotsIn_none]
    intro j
    show (s.fcu.update k (·.freed .shown)).slots[j].state ≠ .showing
    rw [slots]
    split
    · simp [Slot.freed]
    · rename_i other
      exact fun also => other (h.unique also showing)

theorem Fcu.showingSlot_some {f : Fcu} {k : Fin 4} (h : f.showingSlot = some k) : f.slots[k].state = .showing := by
  simpa using List.find?_some h

/-- The cases of section 5.4. -/
theorem Fcu.QueueOk.boundary {s : State} (h : s.fcu.QueueOk) : s.boundary.fcu.QueueOk := by
  unfold State.boundary
  split
  · exact .stop
  · have start : ({ s with fcu.boundary := some (s.now + BitVec.ofNat 32 s.hku.settings.framePeriod) } : State).fcu.QueueOk :=
      h.of_eq rfl rfl Iff.rfl
    dsimp only
    split
    · rename_i k last
      exact .choose start (List.dropLast_append_getLast? k last).symm
    · rename_i k _ showing
      split
      · exact start.repeat k
      · rw [(State.blankBoundary_frame _).2.2.2.1]
        exact start.lose (Fcu.showingSlot_some showing)
    · rw [(State.blankBoundary_frame _).2.2.2.1]
      exact start

end Sys2Proof.Machine
end

section
/-! SUPPORT. The present queue and the copy-pending counts, kept by every effect of a step (R33, R83, R84, R127, R134). -/

namespace Sys2Proof.Machine

/-! ### The copy-pending count of a slot -/

/-- A slot's count is as given; WAITING it is above 0, QUEUED it is 0 (R83). -/
structure Slot.PendingOk (x : Slot) (n : Nat) : Prop where
  count : x.copyPending = n
  waiting : x.state = .waiting → n ≠ 0
  queued : x.state = .queued → n = 0

theorem Slot.PendingOk.of_eq {x y : Slot} {n : Nat} (h : x.PendingOk n) (count : y.copyPending = x.copyPending)
    (state : y.state = x.state) : y.PendingOk n := ⟨count.trans h.count, fun e => h.waiting (state ▸ e), fun e => h.queued (state ▸ e)⟩

/-- A slot that neither waits nor is queued may have any count. -/
theorem Slot.PendingOk.of_other {x : Slot} {n : Nat} (count : x.copyPending = n) (waiting : x.state ≠ .waiting)
    (queued : x.state ≠ .queued) : x.PendingOk n := ⟨count, fun e => absurd e waiting, fun e => absurd e queued⟩

theorem Slot.PendingOk.freed {x : Slot} {n : Nat} (h : x.PendingOk n) (o : SlotOutcome) : (x.freed o).PendingOk n :=
  .of_other h.count nofun nofun

theorem Slot.PendingOk.chosen {x : Slot} {n : Nat} (h : x.PendingOk n) (time : Time) : (x.chosen time).PendingOk n :=
  .of_other h.count nofun nofun

theorem Slot.PendingOk.stopped {x : Slot} {n : Nat} (h : x.PendingOk n) : x.stopped.PendingOk n := by
  unfold Slot.stopped
  split
  · exact h.freed _
  · exact h.freed _
  · exact h.freed _
  · exact h

theorem Slot.PendingOk.submitted {x : Slot} {n : Nat} (h : x.PendingOk n) (v : Word) : (x.submitted v).PendingOk n := by
  have count := h.count
  refine ⟨count, fun state zero => ?_, fun state => ?_⟩
  · simp [Slot.submitted, count, zero] at state
  · simpa [Slot.submitted, count] using state

/-- A slot's record when its count is lowered (R83). -/
def Slot.released (x : Slot) : Slot :=
  if x.state = .waiting ∧ x.copyPending - 1 = 0 then { x with copyPending := x.copyPending - 1, state := .queued, headerDue := true }
  else { x with copyPending := x.copyPending - 1 }

theorem Slot.PendingOk.released {x : Slot} {n : Nat} (h : x.PendingOk (n + 1)) : x.released.PendingOk n := by
  have count : x.copyPending - 1 = n := by rw [h.count, Nat.add_sub_cancel]
  unfold Slot.released
  split
  · rename_i last
    exact ⟨count, nofun, fun _ => count.symm.trans last.2⟩
  · rename_i more
    exact ⟨count, fun waiting zero => more ⟨waiting, count.trans zero⟩, fun queued => absurd (h.queued queued) (Nat.succ_ne_zero n)⟩

theorem Fcu.release_slots (f : Fcu) (k j : Fin 4) :
    (f.release k).slots[j] = if j = k then f.slots[j].released else f.slots[j] := by
  have slots : (f.release k).slots = (f.update k Slot.released).slots := by
    unfold Fcu.release Slot.released
    dsimp only
    split
    · rename_i last; simp only [Fcu.update, if_pos last]
    · rename_i more; simp only [Fcu.update, if_neg more]
  rw [slots, Fcu.update_slots]

theorem Fcu.releases_slots (f : Fcu) (l : List (Fin 4)) (once : l.Nodup) (j : Fin 4) :
    (l.foldl Fcu.release f).slots[j] = if j ∈ l then f.slots[j].released else f.slots[j] := by
  induction l generalizing f with
  | nil => simp
  | cons k l ih =>
    obtain ⟨fresh, once⟩ := List.nodup_cons.mp once
    rw [List.foldl_cons, ih _ once, Fcu.release_slots]
    by_cases same : j = k
    · subst same; simp [fresh]
    · simp [same]

/-! ### The counts and the jobs -/

/-- The jobs of a list that mark a slot. -/
def marking (jobs : List Job) (k : Fin 4) : Nat := jobs.countP fun j => j.marks.contains k

/-- Each slot's count is the number of jobs that mark it, and no job marks a slot twice (R83, R127). -/
structure Fcu.MarksOk (f : Fcu) (jobs : List Job) : Prop where
  once : ∀ j ∈ jobs, j.marks.Nodup
  slots : ∀ k : Fin 4, f.slots[k].PendingOk (marking jobs k)

theorem State.marksOk_iff (s : State) :
    s.MarksOk ↔ s.fcu.MarksOk s.ce.jobs ∧ (s.hku.awaitsTable = true → s.ce.jobs = []) :=
  ⟨fun h => ⟨⟨h.once, fun k =>
      ⟨h.count k, fun e zero => h.waiting k e ((h.count k).trans zero), fun e => (h.count k).symm.trans (h.queued k e)⟩⟩, h.table⟩,
    fun ⟨m, table⟩ => ⟨m.once, fun k => (m.slots k).count, fun k e => (m.slots k).count ▸ (m.slots k).waiting e,
      fun k e => (m.slots k).count.trans ((m.slots k).queued e), table⟩⟩

theorem Fcu.MarksOk.of_slots {f g : Fcu} {jobs : List Job} (h : f.MarksOk jobs)
    (slots : ∀ (k : Fin 4) (n : Nat), f.slots[k].PendingOk n → g.slots[k].PendingOk n) : g.MarksOk jobs :=
  ⟨h.once, fun k => slots k _ (h.slots k)⟩

theorem Fcu.MarksOk.of_eq {f g : Fcu} {jobs : List Job} (h : f.MarksOk jobs) (slots : g.slots = f.slots) : g.MarksOk jobs :=
  h.of_slots fun _ _ x => by rw [slots]; exact x

theorem Fcu.MarksOk.update {f : Fcu} {jobs : List Job} (h : f.MarksOk jobs) (k : Fin 4) {g : Slot → Slot}
    (kept : ∀ n, f.slots[k].PendingOk n → (g f.slots[k]).PendingOk n) : (f.update k g).MarksOk jobs :=
  h.of_slots fun j n x => by
    rw [Fcu.update_slots]
    split
    · rename_i e; subst e; exact kept n x
    · exact x

theorem Fcu.MarksOk.updates {f : Fcu} {jobs : List Job} (h : f.MarksOk jobs) (l : List (Fin 4)) {g : Slot → Slot}
    (kept : ∀ (x : Slot) (n : Nat), x.PendingOk n → (g x).PendingOk n) : (f.updates l g).MarksOk jobs := by
  induction l generalizing f with
  | nil => exact h
  | cons k l ih => exact ih (h.update k (kept _))

theorem Fcu.MarksOk.submit {f : Fcu} {jobs : List Job} (h : f.MarksOk jobs) (k : Fin 4) (v : Word) : (f.submit k v).MarksOk jobs := by
  have updated := h.update k (g := (·.submitted v)) fun _ x => x.submitted v
  unfold Fcu.submit
  split
  · dsimp only
    split
    · exact updated.of_eq rfl
    · exact updated
  · exact h

/-- Without a job, and every slot FREE with a count of 0. -/
theorem Fcu.MarksOk.empty {f : Fcu} (slots : ∀ k : Fin 4, f.slots[k].state = .free ∧ f.slots[k].copyPending = 0) : f.MarksOk [] where
  once := nofun
  slots k := .of_other (slots k).2 (by rw [(slots k).1]; decide) (by rw [(slots k).1]; decide)

/-- A job joins: the slots it marks, all FREE, count one more (R127). -/
theorem Fcu.MarksOk.join {f : Fcu} {jobs : List Job} (h : f.MarksOk jobs) (j : Job) (once : j.marks.Nodup)
    (free : ∀ k ∈ j.marks, f.slots[k].state = .free) :
    (f.updates j.marks fun x => { x with copyPending := x.copyPending + 1 }).MarksOk (jobs ++ [j]) where
  once x mem := by
    rcases List.mem_append.mp mem with old | new
    · exact h.once x old
    · rw [List.mem_singleton.mp new]; exact once
  slots k := by
    have count : marking (jobs ++ [j]) k = marking jobs k + if k ∈ j.marks then 1 else 0 := by simp [marking, List.countP_cons]
    rw [Fcu.updates_slots f _ once, count]
    split
    · rename_i marked
      have state := free k marked
      exact .of_other (congrArg (· + 1) (h.slots k).count) (by simp only [state]; decide) (by simp only [state]; decide)
    · exact h.slots k

/-- A job leaves: the slots it marked count one less (R83, R133). -/
theorem Fcu.MarksOk.leave {f : Fcu} {jobs rest : List Job} {j : Job} (h : f.MarksOk jobs) (perm : jobs.Perm (j :: rest)) :
    (j.marks.foldl Fcu.release f).MarksOk rest where
  once x mem := h.once x (perm.mem_iff.mpr (List.mem_cons_of_mem _ mem))
  slots k := by
    have count : marking jobs k = marking rest k + if k ∈ j.marks then 1 else 0 := by
      rw [marking, perm.countP_eq]
      simp [marking, List.countP_cons]
    have slot := h.slots k
    rw [count] at slot
    rw [Fcu.releases_slots f _ (h.once j (perm.mem_iff.mpr List.mem_cons_self))]
    split
    · rename_i marked
      rw [if_pos marked] at slot
      exact slot.released
    · rename_i unmarked
      rw [if_neg unmarked] at slot
      exact slot

theorem State.destSlots_nodup (s : State) (j : Job) : (s.destSlots j).Nodup := by
  unfold State.destSlots
  split
  · exact List.nodup_nil
  · exact allSlots_nodup.filter _

theorem State.targetBusy_false {s : State} {j : Job} (h : s.targetBusy j = false) :
    ∀ k ∈ s.destSlots j, s.fcu.slots[k].state = .free := by
  simpa [-Fin.getElem_fin, State.targetBusy] using h

theorem Fcu.MarksOk.endRunning {s : State} {j : Job} {rest : List Job} (h : s.fcu.MarksOk s.ce.jobs) (jobs : s.ce.jobs = j :: rest)
    (o : JobOutcome) (n : Nat) : (s.endRunning j o n).fcu.MarksOk (s.endRunning j o n).ce.jobs := by
  rw [State.endRunning_jobs, jobs, List.tail_cons]
  exact h.leave (by rw [jobs])

theorem Fcu.MarksOk.abortJob {s : State} {i : Nat} {j : Job} (h : s.fcu.MarksOk s.ce.jobs) (found : s.ce.jobs[i]? = some j) :
    (s.abortJob i j).fcu.MarksOk (s.abortJob i j).ce.jobs := by
  obtain ⟨bound, there⟩ := List.getElem?_eq_some_iff.mp found
  have head (first : i = 0) : ∃ rest, s.ce.jobs = j :: rest := by
    subst first
    cases jobs : s.ce.jobs with
    | nil => rw [jobs] at bound; cases bound
    | cons x rest =>
      simp only [jobs, List.getElem_cons_zero] at there
      exact ⟨rest, by rw [there]⟩
  unfold State.abortJob
  split
  · exact h.leave (there ▸ (List.getElem_cons_eraseIdx_perm bound).symm)
  · rename_i first
    obtain ⟨rest, jobs⟩ := head (not_ne_iff.mp first)
    split
    · rw [jobs] at h
      exact ⟨by simpa [jobs] using h.once, fun k => by simpa [jobs, marking, List.countP_cons] using h.slots k⟩
    · exact h.endRunning jobs _ _

theorem Fcu.MarksOk.copyWritten {s : State} {j : Job} {rest : List Job} (h : s.fcu.MarksOk s.ce.jobs) (jobs : s.ce.jobs = j :: rest)
    (len : Nat) : (s.copyWritten j len).fcu.MarksOk (s.copyWritten j len).ce.jobs := by
  unfold State.copyWritten
  dsimp only
  split
  · exact h.endRunning jobs _ _
  · split
    · exact h.endRunning jobs _ _
    · exact h

theorem Fcu.MarksOk.choose {s : State} {jobs : List Job} (h : s.fcu.MarksOk jobs) (older : List (Fin 4)) (k : Fin 4) :
    (s.chooseBoundary older k).fcu.MarksOk jobs := by
  have skipped := h.updates older (g := (·.freed .skipped)) fun _ _ x => x.freed _
  have released : (s.fcu.updates older (·.freed .skipped)).showingFreed.MarksOk jobs := by
    unfold Fcu.showingFreed
    split
    · exact skipped.update _ fun _ x => x.freed _
    · exact skipped
  have chosen := released.update k (g := (·.chosen s.now)) fun _ x => x.chosen _
  rw [State.chooseBoundary_fcu]
  exact chosen.of_eq rfl

theorem Fcu.MarksOk.repeat {s : State} {jobs : List Job} (h : s.fcu.MarksOk jobs) (k : Fin 4) :
    (s.repeatBoundary k).fcu.MarksOk jobs := by
  have repeated := h.update k (g := Slot.repeated) fun _ x => x.of_eq rfl rfl
  rw [← State.repeating_fcu] at repeated
  rw [State.repeatBoundary_eq]
  split
  · rw [State.showSlot_fcu]
    exact repeated.update k fun _ x => x.of_eq rfl rfl
  · exact repeated

theorem Fcu.MarksOk.lose {s : State} {jobs : List Job} (h : s.fcu.MarksOk jobs) (k : Fin 4) : (s.loseContent k).fcu.MarksOk jobs := by
  have freed := h.update k (g := (·.freed .shown)) fun _ x => x.freed _
  rw [State.loseContent_fcu]
  exact freed.of_eq rfl

/-- The cases of section 5.4: no boundary changes a count, and no slot comes to wait or to be queued. -/
theorem Fcu.MarksOk.boundary {s : State} {jobs : List Job} (h : s.fcu.MarksOk jobs) : s.boundary.fcu.MarksOk jobs := by
  unfold State.boundary
  split
  · rw [State.stopBoundary_fcu]
    exact h.of_slots fun k n x => by simpa using x.stopped
  · have start : ({ s with fcu.boundary := some (s.now + BitVec.ofNat 32 s.hku.settings.framePeriod) } : State).fcu.MarksOk jobs :=
      h.of_eq rfl
    dsimp only
    split
    · exact start.choose _ _
    · rename_i k _ _
      split
      · exact start.repeat k
      · rw [(State.blankBoundary_frame _).2.2.2.1]
        exact start.lose k
    · rw [(State.blankBoundary_frame _).2.2.2.1]
      exact start

/-! ### Every step -/

/-- Only the housekeeping client, with a table due, comes to read it (R37, R172). -/
theorem State.housekeepingDue_layoutTable {s : State} {r : Record} (h : s.housekeepingDue = some (.layoutTable r)) :
    s.hku.work = .tableDue r := by
  have command (due : s.hku.commandDue = some (.layoutTable r)) : s.hku.work = .tableDue r := by
    unfold Hku.commandDue at due
    split at due
    · cases due
    · split at due
      · cases due; assumption
      · split at due <;> cases due
      all_goals cases due
  have report (due : s.reportDue = some (.layoutTable r)) : s.hku.work = .tableDue r := by
    unfold State.reportDue at due
    split at due
    · cases due
    · split at due
      · cases due
      · split at due
        · cases due
        · split at due
          · cases due
          · split at due
            · cases due
            · exact command due
  unfold State.housekeepingDue at h
  split at h
  · cases h
  · exact report h

theorem State.SlotsOk.of {s u : State} (h : s.SlotsOk) (queue : u.fcu.QueueOk)
    (table : u.hku.awaitsTable = true → s.hku.awaitsTable = true ∧ u.fcu.display = s.fcu.display) : u.SlotsOk := by
  rw [State.slotsOk_iff] at h ⊢
  exact ⟨queue, fun awaits => (table awaits).2.trans (h.2 (table awaits).1)⟩

theorem State.SlotsOk.of_eq {s u : State} (h : s.SlotsOk) (fcu : u.fcu = s.fcu)
    (table : u.hku.awaitsTable = true → s.hku.awaitsTable = true) : u.SlotsOk :=
  h.of (fcu ▸ (s.slotsOk_iff.mp h).1) fun awaits => ⟨table awaits, by rw [fcu]⟩

theorem Grant.keeps_slotsOk {s u : State} (g : Grant s u) (h : s.SlotsOk) : u.SlotsOk := by
  have queue := (s.slotsOk_iff.mp h).1
  cases g with
  | housekeeping free w due =>
    cases w with
    | partHalf k => exact h.of (queue.update k (g := fun x => { x with headerDue := false }) rfl) fun awaits => ⟨awaits, rfl⟩
    | layoutTable r => exact h.of queue fun _ => ⟨by rw [Hku.awaitsTable, State.housekeepingDue_layoutTable due], rfl⟩
    | commandRecord => exact h.of queue nofun
    | _ => exact h.of queue fun awaits => ⟨awaits, rfl⟩
  | _ => exact h.of_eq (by simp) (by simp [Hku.awaitsTable])

@[simp] theorem Fcu.submit_display (f : Fcu) (k : Fin 4) (v : Word) : (f.submit k v).display = f.display := by
  unfold Fcu.submit
  split
  · dsimp only
    split <;> rfl
  · rfl

@[simp] theorem Fcu.release_display (f : Fcu) (k : Fin 4) : (f.release k).display = f.display := by
  unfold Fcu.release
  dsimp only
  split <;> rfl

@[simp] theorem Fcu.releases_display (f : Fcu) (l : List (Fin 4)) : (l.foldl Fcu.release f).display = f.display := by
  induction l generalizing f with
  | nil => rfl
  | cons k l ih => rw [List.foldl_cons, ih, Fcu.release_display]

@[simp] theorem State.endRunning_fcu (s : State) (j : Job) (o : JobOutcome) (n : Nat) :
    (s.endRunning j o n).fcu = j.marks.foldl Fcu.release s.fcu := rfl

/-- The end of a job releases its marks; a job that goes on, or only aborts, leaves the FCU as it is. -/
theorem State.abortJob_fcu (s : State) (i : Nat) (j : Job) :
    (s.abortJob i j).fcu = s.fcu ∨ (s.abortJob i j).fcu = j.marks.foldl Fcu.release s.fcu := by
  unfold State.abortJob
  split
  · exact .inr rfl
  · split
    · exact .inl rfl
    · exact .inr rfl

theorem State.copyWritten_fcu (s : State) (j : Job) (len : Nat) :
    (s.copyWritten j len).fcu = s.fcu ∨ (s.copyWritten j len).fcu = j.marks.foldl Fcu.release s.fcu := by
  unfold State.copyWritten
  dsimp only
  split
  · exact .inr rfl
  · split
    · exact .inr rfl
    · exact .inl rfl

theorem State.queueJob_fcu (s : State) (j : Job) :
    (s.queueJob j).fcu = s.fcu.updates (s.destSlots j) fun x => { x with copyPending := x.copyPending + 1 } := rfl

/-- A table read is refused, or lays out slots that are all FREE (R34, R35). -/
theorem State.checkTable_fcu (s : State) (r : Record) (l : Layout) :
    (s.checkTable r l).fcu = s.fcu ∨
    (s.checkTable r l).fcu = { s.fcu with slots := Vector.replicate 4 Slot.laidOut, queue := [] } := by
  unfold State.checkTable
  split
  · exact .inl (by simp)
  · exact .inr rfl

@[simp] theorem State.checkTable_ce (s : State) (r : Record) (l : Layout) : (s.checkTable r l).ce = s.ce := by simp

theorem Fcu.restarted_slots (f : Fcu) (k : Fin 4) : f.restarted.slots[k] = f.slots[k].restarted := by
  simp [Fcu.restarted]

/-- An APPLY_LAYOUT that is taken finds the display OFF and no job (R33). -/
theorem State.regionsIdle_quiet {s : State} (h : s.regionsIdle = true) : s.fcu.display = .off ∧ s.ce.jobs = [] := by
  simp only [State.regionsIdle, Bool.and_eq_true, beq_iff_eq, List.isEmpty_iff] at h
  obtain ⟨⟨⟨⟨⟨display, _⟩, _⟩, _⟩, _⟩, jobs⟩ := h
  exact ⟨display, jobs⟩

@[simp] theorem State.finishTaking_awaits (s : State) : s.finishTaking.hku.awaitsTable = false := by simp [Hku.awaitsTable]

theorem Effect.keeps_slotsOk {t : Time} {s u : State} (e : Effect t s u) (h : s.SlotsOk) : u.SlotsOk := by
  have queue := (s.slotsOk_iff.mp h).1
  cases e with
  | granted u g => exact g.keeps_slotsOk (h.of_eq rfl id)
  | submitWord k w v rest raising => exact h.of (queue.submit k v) fun awaits => ⟨awaits, by simp⟩
  | applyLayout r taking idle => exact (State.slotsOk_iff _).mpr ⟨queue, fun _ => (State.regionsIdle_quiet idle).1⟩
  | tableRead a r port kind inside reading =>
    refine h.of ?_ (by simp)
    rcases (s.served t a).checkTable_fcu r (layoutOf (a.fetch s.mem)) with same | laid
    · rw [same]; exact queue
    · have off := h.table (by rw [Hku.awaitsTable, reading])
      rw [laid]
      exact .empty (fun k => by simp [Slot.laidOut, Slot.initial]) rfl (by rw [State.served_fcu, off]; decide)
  | restart r =>
    refine h.of ?_ (by simp [Hku.awaitsTable, Hku.restarted])
    rw [State.restart_fcu]
    exact .empty (fun k => by rw [Fcu.restarted_slots]; rfl) rfl nofun
  | displayStart r taking layout off =>
    refine h.of ?_ (by simp)
    rw [State.finishTaking_fcu]
    exact queue.of_dark rfl rfl off nofun nofun
  | displayStopRamp r taking powering =>
    refine h.of ?_ (by simp)
    rw [State.finishTaking_fcu]
    exact queue.of_dark rfl rfl powering nofun nofun
  | displayStopLater r taking =>
    refine h.of ?_ (by simp)
    rw [State.finishTaking_fcu]
    exact queue.of_eq rfl rfl Iff.rfl
  | queueJob r j taking room free =>
    refine h.of ?_ (by simp)
    rw [State.finishTaking_fcu, State.queueJob_fcu]
    exact queue.updates _ fun _ => rfl
  | abortCopy r j i taking found =>
    refine h.of ?_ (by simp)
    rw [State.finishTaking_fcu]
    rcases State.abortJob_fcu { s with now := t } i j with same | released
    · rw [same]; exact queue
    · rw [released]; exact queue.releases _
  | readAborts a j rest port kind inside jobs =>
    exact h.of (queue.releases j.marks) (by simp [Hku.awaitsTable])
  | segmentWritten a j rest len port kind inside jobs =>
    rcases (s.served t a).copyWritten_fcu j len with same | released
    · exact h.of_eq same (by simp [Hku.awaitsTable])
    · exact h.of (released ▸ queue.releases j.marks) (by simp [Hku.awaitsTable, released])
  | consoleHalfRead a k half port kind inside =>
    refine h.of ?_ (by simp [Hku.awaitsTable, State.showSlot_fcu])
    rw [State.showSlot_fcu]
    exact (queue.update k (g := fun x => { x with half := some half }) rfl).update k rfl
  | rampEnds powering =>
    refine (State.slotsOk_iff _).mpr ⟨Fcu.QueueOk.boundary (queue.of_dark rfl rfl powering nofun nofun), fun awaits => ?_⟩
    have off := h.table (by simpa [Hku.awaitsTable] using awaits)
    rw [powering] at off
    cases off
  | frameBoundary runs =>
    refine (State.slotsOk_iff _).mpr ⟨Fcu.QueueOk.boundary queue, fun awaits => ?_⟩
    have off := h.table (by simpa [Hku.awaitsTable] using awaits)
    rcases runs with runs | runs <;> (rw [runs] at off; cases off)
  | _ => exact h.of_eq (by simp) (by simp [Hku.awaitsTable])

theorem State.MarksOk.of {s u : State} (h : s.MarksOk) (marks : u.fcu.MarksOk u.ce.jobs)
    (table : u.hku.awaitsTable = true → s.hku.awaitsTable = true ∧ (s.ce.jobs = [] → u.ce.jobs = [])) : u.MarksOk := by
  rw [State.marksOk_iff] at h ⊢
  exact ⟨marks, fun awaits => (table awaits).2 (h.2 (table awaits).1)⟩

theorem State.MarksOk.of_eq {s u : State} (h : s.MarksOk) (fcu : u.fcu.slots = s.fcu.slots) (jobs : u.ce.jobs = s.ce.jobs)
    (table : u.hku.awaitsTable = true → s.hku.awaitsTable = true) : u.MarksOk :=
  h.of (jobs ▸ (s.marksOk_iff.mp h).1.of_eq fcu) fun awaits => ⟨table awaits, fun e => jobs.trans e⟩

theorem Grant.keeps_marksOk {s u : State} (g : Grant s u) (h : s.MarksOk) : u.MarksOk := by
  have marks := (s.marksOk_iff.mp h).1
  cases g with
  | housekeeping free w due =>
    cases w with
    | partHalf k =>
      exact h.of (marks.update k (g := fun x => { x with headerDue := false }) fun _ x => x.of_eq rfl rfl) fun awaits => ⟨awaits, id⟩
    | layoutTable r => exact h.of marks fun _ => ⟨by rw [Hku.awaitsTable, State.housekeepingDue_layoutTable due], id⟩
    | commandRecord => exact h.of marks nofun
    | _ => exact h.of marks fun awaits => ⟨awaits, id⟩
  | _ => exact h.of_eq (by simp) (by simp) (by simp [Hku.awaitsTable])

theorem Effect.keeps_marksOk {t : Time} {s u : State} (e : Effect t s u) (h : s.MarksOk) : u.MarksOk := by
  have marks := (s.marksOk_iff.mp h).1
  cases e with
  | granted u g => exact g.keeps_marksOk (h.of_eq rfl rfl id)
  | submitWord k w v rest raising => exact h.of (marks.submit k v) fun awaits => ⟨awaits, id⟩
  | applyLayout r taking idle => exact (State.marksOk_iff _).mpr ⟨marks, fun _ => (State.regionsIdle_quiet idle).2⟩
  | tableRead a r port kind inside reading =>
    refine h.of ?_ (by simp)
    rw [State.checkTable_ce]
    rcases (s.served t a).checkTable_fcu r (layoutOf (a.fetch s.mem)) with same | laid
    · rw [same]; exact marks
    · have none_left : s.ce.jobs = [] := h.table (by rw [Hku.awaitsTable, reading])
      rw [laid, State.served_ce, none_left]
      exact .empty fun k => by simp [Slot.laidOut, Slot.initial]
  | restart r =>
    refine h.of ?_ (by simp [Hku.awaitsTable, Hku.restarted])
    rw [State.restart_fcu, State.restart_ce]
    exact .empty fun k => by rw [Fcu.restarted_slots]; exact ⟨rfl, rfl⟩
  | queueJob r j taking room free =>
    refine h.of ?_ (by simp)
    rw [State.finishTaking_fcu, State.finishTaking_ce, State.queueJob_fcu, State.queueJob_jobs]
    exact marks.join { j with marks := s.destSlots j } (s.destSlots_nodup j) (State.targetBusy_false free)
  | abortCopy r j i taking found =>
    refine h.of ?_ (by simp)
    rw [State.finishTaking_fcu, State.finishTaking_ce]
    exact Fcu.MarksOk.abortJob (s := { s with now := t }) marks found
  | readAborts a j rest port kind inside jobs =>
    refine h.of (Fcu.MarksOk.endRunning (s := s.served t a) marks jobs _ _) fun awaits => ⟨by simpa [Hku.awaitsTable] using awaits, ?_⟩
    simp +contextual
  | segmentWritten a j rest len port kind inside jobs =>
    refine h.of (Fcu.MarksOk.copyWritten (s := s.served t a) marks jobs len) fun awaits => ⟨by simpa [Hku.awaitsTable] using awaits, ?_⟩
    rw [jobs]
    exact nofun
  | consoleHalfRead a k half port kind inside =>
    refine h.of ?_ (by simp [Hku.awaitsTable])
    rw [State.showSlot_fcu, (State.showSlot_frame _ _ _).2.2.2.2.2.2.2.1]
    exact (marks.update k (g := fun x => { x with half := some half }) fun _ x => x.of_eq rfl rfl).update k fun _ x => x.of_eq rfl rfl
  | rampEnds | frameBoundary =>
    refine h.of ?_ (by simp [Hku.awaitsTable])
    rw [(State.boundary_frame _).2.2.2.2.2.1]
    exact Fcu.MarksOk.boundary (marks.of_eq rfl)
  | displayStart => exact h.of_eq (by rw [State.finishTaking_fcu]; rfl) (by simp) (by simp)
  | _ => exact h.of_eq (by simp) (by simp) (by simp [Hku.awaitsTable])

theorem State.reset_slotsOk : State.reset.SlotsOk :=
  State.reset.slotsOk_iff.mpr ⟨.empty (by decide) rfl nofun, nofun⟩

theorem State.poweredOn_slotsOk (s : State) : s.poweredOn.SlotsOk :=
  have r := State.reset_slotsOk
  ⟨r.once, r.queued, r.showing, r.table⟩

theorem State.reset_marksOk : State.reset.MarksOk :=
  State.reset.marksOk_iff.mpr ⟨.empty (by decide), nofun⟩

theorem State.poweredOn_marksOk (s : State) : s.poweredOn.MarksOk :=
  have r := State.reset_marksOk
  ⟨r.once, r.count, r.waiting, r.queued, r.table⟩

end Sys2Proof.Machine

open Sys2Proof Sys2Proof.Machine

/-- Settles O53: by what each effect of a step makes of the slots, the queue and the jobs. -/
theorem presentQueueKept : Obligations.PresentQueueKept := by
  unfold Obligations.PresentQueueKept
  refine ⟨fun s s' h run => ?_, fun s s' h run => ?_⟩
  · exact step_keeps (P := State.SlotsOk) (fun _ _ h => h.of_eq rfl id) (fun _ _ g h => g.keeps_slotsOk h)
      (fun _ _ _ e h => e.keeps_slotsOk h) (fun _ h => h.of_eq (by simp) (by simp)) (fun v _ => v.poweredOn_slotsOk) h run
  · exact step_keeps (P := State.MarksOk) (fun _ _ h => h.of_eq rfl rfl id) (fun _ _ g h => g.keeps_marksOk h)
      (fun _ _ _ e h => e.keeps_marksOk h) (fun _ h => h.of_eq (by simp) (by simp) (by simp)) (fun v _ => v.poweredOn_marksOk) h run

end

section
/-! SUPPORT. The invariants in the state of power-on. -/

namespace Sys2Proof.Machine

theorem State.reset_layoutOk : State.reset.LayoutOk where
  sound := nofun
  rings := nofun
  bases := nofun
  display := fun _ => rfl
  streams := fun _ => ⟨rfl, rfl⟩
  motion := fun _ => ⟨rfl, rfl, rfl, nofun⟩

theorem State.poweredOn_layoutOk (s : State) : s.poweredOn.LayoutOk :=
  have r := State.reset_layoutOk
  ⟨r.sound, r.rings, r.bases, r.display, r.streams, r.motion⟩

theorem State.reset_powerOk : State.reset.PowerOk := ⟨by decide, by decide, by decide, by decide, by decide, by decide⟩

theorem State.poweredOn_powerOk (s : State) : s.poweredOn.PowerOk :=
  have r := State.reset_powerOk
  ⟨r.level, r.paused, r.hold, r.overWindows, r.underWindows, r.samples⟩

theorem State.reset_flow : State.reset.tiu.FlowOk := State.reset.poweredOn_flow

end Sys2Proof.Machine

open Sys2Proof Sys2Proof.Machine

/-- Settles O60: in the state of power-on every queue is empty, every count 0 and every block idle. -/
theorem invariantsAtReset : Obligations.InvariantsAtReset := by
  unfold Obligations.InvariantsAtReset
  refine ⟨⟨Memory.wf_reset, State.reset_capacitiesOk, State.reset_powerOk, State.reset_slotsOk, State.reset_marksOk,
    State.reset_posesOk, State.reset_tagsOk, State.reset.flowOk_iff.mpr State.reset_flow, State.reset_layoutOk⟩, fun s => ?_⟩
  exact ⟨s.poweredOn, rfl, id, s.poweredOn_capacitiesOk, s.poweredOn_powerOk, s.poweredOn_slotsOk, s.poweredOn_marksOk,
    s.poweredOn_posesOk, s.poweredOn_tagsOk, s.poweredOn.flowOk_iff.mpr s.poweredOn_flow, s.poweredOn_layoutOk⟩

end

section
/-! SUPPORT. What follows every step at once, and the grants that are due before it (R15, R18, R19, log entries 8, 10, 11, 55). -/

namespace Sys2Proof.Machine

/-! ### A step is the step with the grants due made -/

section
variable (s : State) (t : Time)

theorem State.portDone_granted {α : Type} (select : AccessKind → Option α) (k : α → Bool → List Byte → State → State) :
    s.portDone t select k = s.granted.portDone t select k := by simp [State.portDone]

theorem State.takeEvent_granted {α : Type} (select : Watched → Option α) (k : α → Word → State → State) (later : t ≠ s.now) :
    s.takeEvent t select k = s.granted.takeEvent t select k := by
  have first : s.beforeEvent t = s.granted := State.beforeEvent_later later
  have second : s.granted.beforeEvent t = s.granted := State.beforeEvent_eq (.inl s.granted_granted)
  simp [State.takeEvent, first, second]

theorem State.takeRecord_granted (isCode : Half → Bool) (k : Record → State → State)
    (later : t ≠ s.now ∨ ∀ r, s.hku.work ≠ .taking r) : s.takeRecord t isCode k = s.granted.takeRecord t isCode k := by
  have first : s.beforeTaking t = s.granted := State.beforeTaking_later later
  have second : s.granted.beforeTaking t = s.granted := by
    rcases s.granted.beforeTaking_cases t with same | granted
    · exact same
    · rw [granted, State.granted_granted]
  simp [State.takeRecord, first, second]

end

theorem exec_granted (i : Instr) (s : State)
    (grants : ∀ t, i ≠ .audioGrant t ∧ i ≠ .motionGrant t ∧ i ≠ .housekeepingGrant t ∧ i ≠ .copyGrant t)
    (events : ∀ t, i ∈ [.commandProducer t, .noticeConsumer t, .poseHold t, .playbackProducer t, .captureConsumer t, .cueRequest t,
      .submitWord t] → t ≠ s.now)
    (takings : ∀ t, i ∈ [.unknownCommand t, .applyLayout t, .restart t, .displayStart t, .displayStop t, .setEyeTrim t,
      .motionStart t, .motionStop t, .setGyroBias t, .playbackStart t, .playbackStop t, .setVolume t, .captureStart t, .captureStop t,
      .copy t, .fill t, .abortCopy t, .powerGrant t, .powerCeiling t, .setAttentionMask t] →
      t ≠ s.now ∨ ∀ r, s.hku.work ≠ .taking r) : exec i s = exec i s.granted := by
  cases i with
  | powerOn => simp [exec, execPowerOn]
  | audioGrant t => exact absurd rfl (grants t).1
  | motionGrant t => exact absurd rfl (grants t).2.1
  | housekeepingGrant t => exact absurd rfl (grants t).2.2.1
  | copyGrant t => exact absurd rfl (grants t).2.2.2
  | commandProducer t | noticeConsumer t | poseHold t | playbackProducer t | captureConsumer t | cueRequest t | submitWord t =>
    dsimp only [exec]
    exact s.takeEvent_granted t _ _ (events t (by simp))
  | unknownCommand t | applyLayout t | restart t | displayStart t | displayStop t | setEyeTrim t | motionStart t | motionStop t
  | setGyroBias t | playbackStart t | playbackStop t | setVolume t | captureStart t | captureStop t | copy t | fill t | abortCopy t
  | powerGrant t | powerCeiling t | setAttentionMask t =>
    dsimp only [exec]
    exact s.takeRecord_granted t _ _ (takings t (by simp))
  | bootWriteDone t =>
    dsimp only [exec]
    unfold execBootWriteDone
    rw [State.portDone_granted]
    simp only [Hku.bootSettingsAccess, State.granted_settings]
  | bootLoadComplete t | inboundWriteDone t | inboundReadDone t | commandConsumerWriteDone t | layoutTableRead t | poseRingWritten t
  | exchangeRecordWriteDone t | consoleHalfReadDone t | copyReadDone t | copyWriteDone t | cueEntryRead t | captureRecordWriteDone t
  | noticeEntryWriteDone t | noticeProducerWriteDone t | partHalfWriteDone t | restartWriteDone t | statusBlockWriteDone t
  | motionAccessDone t | scanAccessDone t | audioAccessDone t =>
    dsimp only [exec]
    exact s.portDone_granted t _ _
  | bootRecordRead | linkUp | linkDown | badMessage | write | read | timeMark | requestTake | upstreamMessageSent | dataReady
  | sensorReadDone | sensorExchangeDone | stallTimerExpiry | rampTimerExpiry | frameBoundary | scanRowDue | litIntervalStart
  | litIntervalEnd | blockBoundary | powerSample | statusTimerExpiry | codecFrame =>
    dsimp only [exec]
    simp only [execBootRecordRead, execLinkUp, execLinkDown, execBadMessage, execWrite, execRead, execTimeMark, execRequestTake,
      execUpstreamMessageSent, execDataReady, execSensorReadDone, execSensorExchangeDone, execStallTimerExpiry,
      execRampTimerExpiry, execFrameBoundary, execScanRowDue, execLitIntervalStart, execLitIntervalEnd, execBlockBoundary,
      execPowerSample, execStatusTimerExpiry, execCodecFrame, State.granted_granted]

/-! ### What a settling does -/

section
variable {s : State}

/-- The port and the service after a settling are those of the arbitration. -/
@[simp] theorem State.settle_port : s.settle.port = s.arbitrate.port := rfl

@[simp] theorem State.settle_service : s.settle.tiu.service = s.arbitrate.tiu.service := by
  rw [State.settle, Tiu.startSending_eq]

theorem State.arbitrate_busy {a : Access} (busy : s.port = some a) : s.arbitrate = s := by simp only [State.arbitrate, busy]

theorem State.arbitrate_scan {a : Access} (free : s.port = none) (waits : s.scanWaiting = some a) :
    s.arbitrate = { s with port := some a } := by simp only [State.arbitrate, free, waits]

theorem State.arbitrate_inbound {a : Access} (free : s.port = none) (scan : s.scanWaiting = none) (quiet : s.au.waiting = [])
    (presented : s.tiu.service = .presented a) : s.arbitrate = { s with port := some a, tiu.service := .atPort } := by
  simp only [State.arbitrate, free, scan, quiet, presented]

theorem State.inboundWaiting_iff : s.inboundWaiting = true ↔ ∃ a, s.tiu.service = .presented a := by
  unfold State.inboundWaiting
  split
  · rename_i a presented; exact ⟨fun _ => ⟨a, presented⟩, fun _ => rfl⟩
  all_goals rename_i other; simp [other]

theorem State.arbitrate_none (scan : s.scanWaiting = none) (waits : s.au.waiting ≠ [] ∨ s.inboundWaiting = false) :
    s.arbitrate = s := by
  unfold State.arbitrate
  split
  · rfl
  · rw [scan]
    dsimp only
    split
    · rename_i a quiet presented
      have inbound : s.inboundWaiting = true := State.inboundWaiting_iff.mpr ⟨a, presented⟩
      rcases waits with audio | other
      · exact absurd quiet audio
      · exact absurd (other.symm.trans inbound) (by decide)
    · rfl

theorem State.settle_sending : s.settle.tiu.sending =
    if s.tiu.link = .up ∧ s.tiu.sending = none then
      if s.tiu.flowOut ≠ [] then some .flow else if s.tiu.order ≠ [] then some .order else none
    else s.tiu.sending := by
  rw [State.settle, Tiu.startSending, State.arbitrate_tiu]
  by_cases up : s.tiu.link = .up ∧ s.tiu.sending = none
  · by_cases flow : s.tiu.flowOut = []
    · by_cases order : s.tiu.order = [] <;> simp [up, flow, order]
    · simp [up, flow]
  · simp [up]

/-- A settling changes the port, the service and what is being transmitted. -/
theorem State.settle_frame (s : State) : s.settle = { s with
    port := s.settle.port
    tiu := { s.tiu with service := s.settle.tiu.service, sending := s.settle.tiu.sending } } := by
  rw [← State.settle_tiu]
  have mem := s.settle_mem
  have now := s.settle_now
  have fcu := s.settle_fcu
  have ssu := s.settle_ssu
  have mu := s.settle_mu
  have au := s.settle_au
  have pu := s.settle_pu
  have ce := s.settle_ce
  have hku := s.settle_hku
  have index := s.settle_freeIndex
  have pending := s.settle_pending
  generalize s.settle = u at *
  cases u
  simp_all

end

/-! ### The grant that is due -/

section
variable {s : State}

theorem State.fire_now (f : State → State) {c : Bool} (h : c = true) : s.fire s.now c f = .next (f s).settle := s.fire_pos s.now f h

theorem State.granted_of_busy {a : Access} (busy : s.grantFirst.port = some a) : s.granted = s.grantFirst :=
  State.grantFirst_busy _ a busy

theorem State.grantFirst_audio {a : AudioAccess} {rest : List AudioAccess} (go : s.audioMayGo = true) (waits : s.au.waiting = a :: rest) :
    s.grantFirst = s.grantAudio := by simp only [State.grantFirst, go, waits, if_true]

theorem State.grantFirst_motion {w : MotionWork} (go : s.motionMayGo = true) (due : s.mu.pub.due = some w) :
    s.grantFirst = s.grantMotion w := by
  simp only [State.motionMayGo, Bool.and_eq_true, Bool.not_eq_true', List.isEmpty_iff] at go
  obtain ⟨⟨audio, quiet⟩, inbound⟩ := go
  simp only [State.grantFirst, audio, quiet, inbound, due, if_true]

theorem State.grantFirst_housekeeping {w : HousekeepingWork} (go : s.housekeepingMayGo = true) (due : s.housekeepingDue = some w) :
    s.grantFirst = s.grantHousekeeping w := by
  simp only [State.housekeepingMayGo, State.motionMayGo, Bool.and_eq_true, Bool.not_eq_true', List.isEmpty_iff,
    Option.isNone_iff_eq_none] at go
  obtain ⟨⟨⟨audio, quiet⟩, inbound⟩, motion⟩ := go
  simp only [State.grantFirst, audio, quiet, inbound, motion, due, if_true]

theorem State.grantFirst_copy (go : s.copyMayGo = true) : s.grantFirst = s.grantCopy := by
  simp only [State.copyMayGo, State.housekeepingMayGo, State.motionMayGo, Bool.and_eq_true, Bool.not_eq_true', List.isEmpty_iff,
    Option.isNone_iff_eq_none] at go
  obtain ⟨⟨⟨⟨audio, quiet⟩, inbound⟩, motion⟩, housekeeping⟩ := go
  simp only [State.grantFirst, audio, quiet, inbound, motion, housekeeping, if_true]

theorem State.granted_copy (go : s.copyMayGo = true) : s.granted = s.grantCopy := by
  rw [State.granted, State.grantFirst_copy go]
  rcases s.grantCopy_cases with same | ⟨a, made⟩
  · rw [same, State.grantFirst_copy go, same]
  · rw [made]
    exact State.grantFirst_busy _ a rfl

/-- The read of a command record leaves the port to a copy grant (log entry 11). -/
theorem State.granted_record (go : s.housekeepingMayGo = true) (due : s.housekeepingDue = some .commandRecord) :
    (s.grantHousekeeping .commandRecord).copyMayGo = true ∧ s.granted = (s.grantHousekeeping .commandRecord).grantCopy := by
  have may : (s.grantHousekeeping .commandRecord).copyMayGo = true := by
    rw [State.copyMayGo, Bool.and_eq_true, Option.isNone_iff_eq_none]
    exact ⟨go, s.housekeepingDue_record _ due⟩
  refine ⟨may, ?_⟩
  rw [State.granted, State.grantFirst_housekeeping go due, State.grantFirst_copy may]

/-- A scan-out access or an inbound access that waits holds the port back. -/
theorem State.granted_waiting (waits : s.scanWaiting ≠ none ∨ (s.au.waiting = [] ∧ s.inboundWaiting = true)) : s.granted = s := by
  have first : s.grantFirst = s := by
    unfold State.grantFirst
    split
    · rename_i go
      rcases waits with scan | ⟨quiet, inbound⟩
      · exact absurd (s.audioMayGo_iff.mp go).2 scan
      · simp only [quiet, inbound]
    · rfl
  rw [State.granted, first, first]

end

end Sys2Proof.Machine

open Sys2Proof Sys2Proof.Machine

/-- Settles O1: the two branches of the step. -/
theorem stepRunsFrontCommand : Obligations.StepRunsFrontCommand := by
  unfold Obligations.StepRunsFrontCommand
  exact ⟨fun c rest s front => step_cons c rest s front, fun s idle => step_idle s idle⟩

/-- Settles O2: by the branches of the arbitration, by the shapes of the steps, and by the client whose grant is due. -/
theorem settleGrantsThePort : Obligations.SettleGrantsThePort := by
  unfold Obligations.SettleGrantsThePort
  refine ⟨fun s => ⟨fun a busy => ?_, fun free a scan => ?_, fun free scan a quiet presented => ?_, fun free scan waits => ?_,
    fun up idle flow => ?_, fun up idle flow order => ?_, fun quiet => ?_, s.settle_frame⟩,
    fun i s grants events takings => exec_granted i s grants events takings, fun s => ?_⟩
  · simp [State.arbitrate_busy busy, busy]
  · simp [State.arbitrate_scan free scan]
  · simp [State.arbitrate_inbound free scan quiet presented]
  · simp [State.arbitrate_none scan waits, free]
  · simp [State.settle_sending, up, idle, flow]
  · simp [State.settle_sending, up, idle, flow, order]
  · rw [State.settle_sending]
    rcases quiet with down | sending | ⟨flow, order⟩
    · simp [down]
    · simp [sending]
    · by_cases start : s.tiu.link = .up ∧ s.tiu.sending = none <;> simp [start, flow, order]
  · dsimp only
    have audio (h : s.port = none ∧ s.scanWaiting = none) : s.audioMayGo = true := s.audioMayGo_iff.mpr h
    have motion (h : (s.port = none ∧ s.scanWaiting = none) ∧ s.au.waiting = [] ∧ s.inboundWaiting = false) :
        s.motionMayGo = true := by
      obtain ⟨free, quiet, inbound⟩ := h
      simp [State.motionMayGo, audio free, quiet, inbound]
    refine ⟨s.granted_granted, fun a busy => s.granted_busy a busy, State.granted_waiting, fun free waits => ?_, fun lower due => ?_,
      fun lower none_due due other => ?_, fun lower none_due due => ?_, fun lower none_due quiet => ?_⟩
    · obtain ⟨a, rest, waiting⟩ := List.exists_cons_of_ne_nil waits
      have first := State.grantFirst_audio (audio free) waiting
      have granted : s.granted = s.grantAudio := by
        rw [State.granted_of_busy (a := s.au.access a), first]
        simp [first, State.grantAudio, waiting]
      rw [granted]
      exact State.fire_now _ (by simp [audio free, waiting])
    · obtain ⟨w, work⟩ := Option.ne_none_iff_exists'.mp due
      have first := State.grantFirst_motion (motion lower) work
      obtain ⟨a, port⟩ := s.grantMotion_port w
      have granted : s.granted = s.grantMotion w := by
        rw [State.granted_of_busy (a := a), first]
        rw [first, port]
      rw [granted]
      dsimp only [exec]
      simp only [execMotionGrant, work]
      exact State.fire_now _ (motion lower)
    · obtain ⟨w, work⟩ := Option.ne_none_iff_exists'.mp due
      have go : s.housekeepingMayGo = true := by simp [State.housekeepingMayGo, motion lower, none_due]
      have first := State.grantFirst_housekeeping go work
      obtain ⟨a, port⟩ := s.grantHousekeeping_port w fun record => other (by rw [work, record])
      have granted : s.granted = s.grantHousekeeping w := by
        rw [State.granted_of_busy (a := a), first]
        rw [first, port]
      rw [granted]
      dsimp only [exec]
      simp only [execHousekeepingGrant, work]
      exact State.fire_now _ go
    · have go : s.housekeepingMayGo = true := by simp [State.housekeepingMayGo, motion lower, none_due]
      obtain ⟨may, granted⟩ := State.granted_record go due
      refine ⟨recordOf (s.mem.readBytes (recordAddr s.hku.consumer) 32), ?_, ?_⟩
      · dsimp only [exec]
        simp only [execHousekeepingGrant, due]
        exact State.fire_now _ go
      · rw [granted]
        exact State.fire_now _ may
    · have go : s.copyMayGo = true := by simp [State.copyMayGo, State.housekeepingMayGo, motion lower, none_due, quiet]
      rw [State.granted_copy go]
      exact State.fire_now _ go

end

section
/-! SUPPORT. Power-on and the boot load (R26 to R31): the records the part writes, field by field, and the boot settings. -/

namespace Sys2Proof.Machine

/-! ### A step and what it makes of the state -/

section
variable {s u : State} {t : Time}

/-- An access of the selected kind inside DRAM completes, with what its owner does written out. -/
theorem State.portDone_eq {α : Type} {select : AccessKind → Option α} {k : α → Bool → List Byte → State → State} {a : Access}
    (port : s.port = some a) (inside : a.stop ≤ Config.dramSize) (x : α) (selects : select a.kind = some x)
    (makes : k x a.live (a.fetch s.mem) (s.served t a) = u) : s.portDone t select k = .next u.settle :=
  makes ▸ s.portDone_pos t select k a x port selects inside

/-- A step whose condition holds, with its effect written out. -/
theorem State.fire_eq {f : State → State} {c : Bool} (holds : c = true) (makes : f { s with now := t } = u) :
    s.fire t c f = .next u.settle := makes ▸ s.fire_pos t f holds

/-- A record whose code the step is about is taken, with its effect written out. -/
theorem State.takeRecord_eq {isCode : Half → Bool} {k : Record → State → State} {r : Record} (before : s.granted = s ∨ t = s.now)
    (taking : s.hku.work = .taking r) (code : isCode r.code = true) (makes : k r { s with now := t } = u) :
    s.takeRecord t isCode k = .next u.settle := makes ▸ s.takeRecord_pos t isCode k r before taking code

/-- The event at the head of those raised is taken, with its effect written out. -/
theorem State.takeEvent_eq {α : Type} {select : Watched → Option α} {k : α → Word → State → State} {w : Watched} {v : Word}
    {rest : List (Watched × Word)} (before : s.granted = s ∨ t = s.now) (raising : s.tiu.service = .raising ((w, v) :: rest)) (x : α)
    (selects : select w = some x) (makes : k x v { s with now := t, tiu.service := serviceOf rest } = u) :
    s.takeEvent t select k = .next u.settle := makes ▸ s.takeEvent_pos t select k w v rest x before raising selects

end

/-! ### Records of equal length behind each other -/

/-- A field of one record among records of equal length. -/
theorem fieldAt_flatten (d : Nat) (l : List (List Byte)) (each : ∀ r ∈ l, r.length = d) (i : Nat) (inside : i < l.length) (off n : Nat)
    (fits : off + n ≤ d) : fieldAt l.flatten (d * i + off) n = fieldAt l[i] off n := by
  induction l generalizing i with
  | nil => cases inside
  | cons r l ih =>
    have length : r.length = d := each r List.mem_cons_self
    cases i with
    | zero => simpa using fieldAt_append_left r l.flatten off n (length ▸ fits)
    | succ i =>
      rw [List.flatten_cons, fieldAt_append_right _ _ _ _ (by rw [length]; nlinarith), length]
      have rest := ih (fun x mem => each x (List.mem_cons_of_mem _ mem)) i (Nat.lt_of_succ_lt_succ inside)
      rw [List.getElem_cons_succ, ← rest]
      congr 1
      rw [Nat.mul_succ]
      omega

theorem length_flatten_of_length (d : Nat) (l : List (List Byte)) (each : ∀ r ∈ l, r.length = d) : l.flatten.length = d * l.length := by
  induction l with
  | nil => rfl
  | cons r l ih =>
    rw [List.flatten_cons, List.length_append, each r List.mem_cons_self, ih fun x mem => each x (List.mem_cons_of_mem _ mem),
      List.length_cons]
    ring

/-- A field behind all numbers of a record, among its zero bytes. -/
theorem fieldAt_tail (front : List Byte) (k off n : Nat) (behind : front.length ≤ off) :
    fieldAt (front ++ List.replicate k 0) off n = 0 := by
  rw [fieldAt_append_right _ _ _ _ behind, fieldAt_zeros]

/-! ### The identification record and the boot settings piece -/

theorem identityBytes_length (source adjusted : Nat) : (identityBytes source adjusted).length = 64 := by
  unfold identityBytes
  simp only [List.length_append, leBytes_length, List.length_replicate]

@[simp] theorem LevelCaps.bytes_length (c : LevelCaps) : c.bytes.length = 8 := by simp [LevelCaps.bytes]

theorem Settings.levels_length (c : Settings) : (c.levels.toList.map LevelCaps.bytes).flatten.length = 64 := by
  rw [length_flatten_of_length 8 _ (by simp)]
  simp

@[simp] theorem Settings.bytes_length (c : Settings) : c.bytes.length = 192 := by
  unfold Settings.bytes
  simp only [List.length_append, leBytes_length, c.levels_length, List.length_replicate]

/-- The settings piece up to the power level table. -/
def Settings.head (c : Settings) : List Byte :=
  leBytes 2 c.panelWidth ++ leBytes 2 c.panelHeight ++ leBytes 4 c.framePeriod ++ leBytes 4 c.litOffset ++
    leBytes 1 c.guardX ++ leBytes 1 c.guardY ++ leBytes 2 c.kx ++ leBytes 2 c.ky ++
    leBytes 1 (BitVec.ofInt 8 c.trims.left).toNat ++ leBytes 1 (BitVec.ofInt 8 c.trims.right).toNat ++
    leBytes 1 c.axisMap.yaw.code ++ leBytes 1 c.axisMap.pitch.code ++ leBytes 2 c.axisMap.roll.code ++
    leBytes 2 c.bias.yaw.toNat ++ leBytes 2 c.bias.pitch.toNat ++ leBytes 4 c.bias.roll.toNat ++ leBytes 4 c.defaultGrant ++
    leBytes 4 c.undervoltage

theorem Settings.bytes_eq (c : Settings) :
    c.bytes = c.head ++ ((c.levels.toList.map LevelCaps.bytes).flatten ++ List.replicate 88 0) :=
  List.append_assoc _ _ _

theorem Settings.head_length (c : Settings) : c.head.length = 40 := by
  unfold Settings.head
  simp only [List.length_append, leBytes_length]

/-- A field before the power level table. -/
theorem Settings.field_head (c : Settings) (off n : Nat) (fits : off + n ≤ 40) : fieldAt c.bytes off n = fieldAt c.head off n := by
  rw [c.bytes_eq, fieldAt_append_left _ _ _ _ (by rw [c.head_length]; exact fits)]

/-- A field of an entry of the power level table. -/
theorem Settings.field_level (c : Settings) (i : Fin 8) (off n : Nat) (fits : off + n ≤ 8) :
    fieldAt c.bytes (40 + 8 * i.val + off) n = fieldAt c.levels[i].bytes off n := by
  have inside : i.val < (c.levels.toList.map LevelCaps.bytes).length := by simp
  have bound := i.isLt
  rw [c.bytes_eq, fieldAt_append_right _ _ _ _ (by rw [c.head_length]; omega), c.head_length,
    fieldAt_append_left _ _ _ _ (by rw [c.levels_length]; omega)]
  have entry := fieldAt_flatten 8 (c.levels.toList.map LevelCaps.bytes) (by simp) i.val inside off n fits
  rw [show 40 + 8 * i.val + off - 40 = 8 * i.val + off by omega, entry]
  simp

theorem AxisSource.code_eq (x : AxisSource) :
    x.code = (if x.source = .x then 0 else if x.source = .y then 1 else 2) + if x.negative then 128 else 0 := by
  obtain ⟨source, negative⟩ := x
  cases source <;> cases negative <;> rfl

theorem AxisSource.code_lt (x : AxisSource) : x.code < 256 := by
  obtain ⟨source, negative⟩ := x
  cases source <;> cases negative <;> decide

theorem Rate.hz_lt (r : Rate) : r.hz < 65536 := by cases r <;> decide

section
variable (source adjusted : Nat)

/-- The identification record field by field (R27). -/
theorem identityBytes_fields : fieldAt (identityBytes source adjusted) 0 2 = 0x0D37 ∧
    fieldAt (identityBytes source adjusted) 2 2 = 0x7120 ∧ fieldAt (identityBytes source adjusted) 4 2 = 1 ∧
    fieldAt (identityBytes source adjusted) 6 2 = 0 ∧ fieldAt (identityBytes source adjusted) 8 4 = 0x20000000 ∧
    fieldAt (identityBytes source adjusted) 12 1 = source % 256 ∧ fieldAt (identityBytes source adjusted) 13 1 = adjusted % 256 := by
  simp [identityBytes, List.append_assoc, fieldAt_number, fieldAt_behind, Config.dramSize]

theorem identityBytes_tail (n : Nat) (behind : 14 ≤ n) : fieldAt (identityBytes source adjusted) n 1 = 0 :=
  fieldAt_tail _ _ _ _ (by simpa only [List.length_append, leBytes_length] using behind)

end

section
variable (c : Settings)

/-- The numbers of the boot settings piece up to the power level table (R31). -/
theorem Settings.head_numbers : fieldAt c.head 0 2 = c.panelWidth % 65536 ∧ fieldAt c.head 2 2 = c.panelHeight % 65536 ∧
    fieldAt c.head 4 4 = c.framePeriod % 4294967296 ∧ fieldAt c.head 8 4 = c.litOffset % 4294967296 ∧
    fieldAt c.head 12 1 = c.guardX % 256 ∧ fieldAt c.head 13 1 = c.guardY % 256 ∧ fieldAt c.head 14 2 = c.kx % 65536 ∧
    fieldAt c.head 16 2 = c.ky % 65536 ∧ fieldAt c.head 32 4 = c.defaultGrant % 4294967296 ∧
    fieldAt c.head 36 4 = c.undervoltage % 4294967296 := by
  simp [Settings.head, List.append_assoc, fieldAt_number, fieldAt_behind, fieldAt_leBytes]

/-- The trims, the axis map and the bias in the boot settings piece (R31). -/
theorem Settings.head_signed : fieldAt c.head 18 1 = (BitVec.ofInt 8 c.trims.left).toNat ∧
    fieldAt c.head 19 1 = (BitVec.ofInt 8 c.trims.right).toNat ∧ fieldAt c.head 20 1 = c.axisMap.yaw.code ∧
    fieldAt c.head 21 1 = c.axisMap.pitch.code ∧ fieldAt c.head 22 1 = c.axisMap.roll.code ∧ fieldAt c.head 23 1 = 0 ∧
    fieldAt c.head 24 2 = c.bias.yaw.toNat ∧ fieldAt c.head 26 2 = c.bias.pitch.toNat ∧
    fieldAt c.head 28 2 = c.bias.roll.toNat ∧ fieldAt c.head 30 2 = 0 := by
  have left := (BitVec.ofInt 8 c.trims.left).isLt
  have right := (BitVec.ofInt 8 c.trims.right).isLt
  have yaw := c.axisMap.yaw.code_lt
  have pitch := c.axisMap.pitch.code_lt
  have roll := c.axisMap.roll.code_lt
  have biasYaw := c.bias.yaw.isLt
  have biasPitch := c.bias.pitch.isLt
  have biasRoll := c.bias.roll.isLt
  simp only [Settings.head, List.append_assoc]
  generalize (BitVec.ofInt 8 c.trims.left).toNat = l at *
  generalize (BitVec.ofInt 8 c.trims.right).toNat = r at *
  refine ⟨?_, ?_, ?_, ?_, ?_, ?_, ?_, ?_, ?_, ?_⟩ <;> simp [fieldAt_number, fieldAt_behind] <;> omega

/-- An entry of the power level table (R31). -/
theorem LevelCaps.bytes_fields (x : LevelCaps) : fieldAt x.bytes 0 2 = x.lit % 65536 ∧ fieldAt x.bytes 2 2 = x.gain % 65536 ∧
    fieldAt x.bytes 4 2 = x.rate.hz ∧ fieldAt x.bytes 6 2 = 0 := by
  have hz := x.rate.hz_lt
  simp only [LevelCaps.bytes, List.append_assoc]
  refine ⟨?_, ?_, ?_, ?_⟩ <;> simp [fieldAt_number, fieldAt_behind, fieldAt_leBytes] <;> omega

theorem Settings.bytes_tail (n : Nat) (behind : 104 ≤ n) : fieldAt c.bytes n 1 = 0 := by
  rw [c.bytes_eq, ← List.append_assoc]
  exact fieldAt_tail _ _ _ _ (by rw [List.length_append, c.head_length, c.levels_length]; exact behind)

end

end Sys2Proof.Machine

open Sys2Proof Sys2Proof.Machine

/-- Settles O3: by evaluating the power-on state. -/
theorem powerOnState : Obligations.PowerOnState := by
  unfold Obligations.PowerOnState
  exact ⟨fun s => rfl, by decide⟩

/-- Settles O4: each completion by its kind of access, each record field by field. -/
theorem bootLoadSteps : Obligations.BootLoadSteps := by
  unfold Obligations.BootLoadSteps
  refine ⟨fun t s a port inside => ⟨fun kind => ?_, fun kind => ?_, fun kind => ?_, fun k kind early => ?_, fun kind => ?_⟩,
    fun source adjusted => ?_, rfl, rfl, fun c => ?_⟩
  · dsimp only [exec, execBootWriteDone]
    exact State.portDone_eq port inside none (by rw [kind]) rfl
  · dsimp only [exec, execBootWriteDone]
    exact State.portDone_eq port inside (some s.hku.bootSettingsAccess) (by rw [kind]) rfl
  · dsimp only [exec, execBootWriteDone]
    exact State.portDone_eq port inside (some (bootZeroAccess 0)) (by rw [kind]) rfl
  · dsimp only [exec, execBootWriteDone]
    refine State.portDone_eq port inside (some (bootZeroAccess (k + 1))) (by rw [kind]; exact if_pos early) ?_
    have value : (k + 1).val = k.val + 1 := Fin.val_add_one_of_lt' (by omega)
    have addr : 0x100 + 256 * (k.val + 1) = 0x200 + 256 * k.val := by ring
    simp only [bootZeroAccess, value, addr]
  · dsimp only [exec, execBootLoadComplete]
    exact State.portDone_eq port inside () (by rw [kind]; rfl) rfl
  · obtain ⟨f0, f2, f4, f6, f8, f12, f13⟩ := identityBytes_fields source adjusted
    exact ⟨identityBytes_length source adjusted, f0, f2, f4, f6, f8, f12, f13, fun n behind _ => identityBytes_tail source adjusted n behind⟩
  · obtain ⟨width, height, period, lit, guardX, guardY, kx, ky, grant, volts⟩ := c.head_numbers
    obtain ⟨left, right, yaw, pitch, roll, pad, biasYaw, biasPitch, biasRoll, rest⟩ := c.head_signed
    have head (off n : Nat) (fits : off + n ≤ 40) := c.field_head off n fits
    have level (i : Fin 8) (off n : Nat) (fits : off + n ≤ 8) := c.field_level i off n fits
    dsimp only
    refine ⟨c.bytes_length, (head 0 2 (by decide)).trans width, (head 2 2 (by decide)).trans height,
      (head 4 4 (by decide)).trans period, (head 8 4 (by decide)).trans lit, (head 12 1 (by decide)).trans guardX,
      (head 13 1 (by decide)).trans guardY, (head 14 2 (by decide)).trans kx, (head 16 2 (by decide)).trans ky,
      (head 18 1 (by decide)).trans left, (head 19 1 (by decide)).trans right, ?_, ?_, ?_, (head 23 1 (by decide)).trans pad,
      ?_, ?_, ?_, (head 30 2 (by decide)).trans rest, (head 32 4 (by decide)).trans grant, (head 36 4 (by decide)).trans volts,
      fun n => ?_, fun n behind _ => c.bytes_tail n behind⟩
    · rw [head 20 1 (by decide), yaw, AxisSource.code_eq]
    · rw [head 21 1 (by decide), pitch, AxisSource.code_eq]
    · rw [head 22 1 (by decide), roll, AxisSource.code_eq]
    · rw [halfAt, head 24 2 (by decide), biasYaw, BitVec.ofNat_toNat, BitVec.setWidth_eq]
    · rw [halfAt, head 26 2 (by decide), biasPitch, BitVec.ofNat_toNat, BitVec.setWidth_eq]
    · rw [halfAt, head 28 2 (by decide), biasRoll, BitVec.ofNat_toNat, BitVec.setWidth_eq]
    · obtain ⟨lit, gain, rate, pad⟩ := c.levels[n].bytes_fields
      have at2 : 42 + 8 * n.val = 40 + 8 * n.val + 2 := by ring
      have at4 : 44 + 8 * n.val = 40 + 8 * n.val + 4 := by ring
      have at6 : 46 + 8 * n.val = 40 + 8 * n.val + 6 := by ring
      rw [at2, at4, at6, level n 2 2 (by decide), level n 4 2 (by decide), level n 6 2 (by decide)]
      exact ⟨(level n 0 2 (by decide)).trans lit, gain, rate, pad⟩

end

section
/-! SUPPORT. The boot settings from a flash record: each as written when it lies in its range, else its default (R28 to R30). -/

namespace Sys2Proof.Machine

@[simp] theorem checked_fst {α : Type} (ok : Bool) (written dflt : α) :
    (checked ok written dflt).1 = if ok = true then written else dflt := by
  cases ok <;> rfl

@[simp] theorem checked_snd {α : Type} (ok : Bool) (written dflt : α) : (checked ok written dflt).2 = !ok := by
  cases ok <;> rfl

/-! ### The axis map -/

/-- The source a code below 3 stands for. -/
def axisSource (v : Nat) : Source := if v % 4 = 0 then .x else if v % 4 = 1 then .y else .z

/-- Three entries name the three sources in some order (R30). -/
def axesDiffer (yaw pitch roll : Nat) : Prop :=
  yaw % 4 ≠ 3 ∧ pitch % 4 ≠ 3 ∧ roll % 4 ≠ 3 ∧ yaw % 4 ≠ pitch % 4 ∧ yaw % 4 ≠ roll % 4 ∧ pitch % 4 ≠ roll % 4

theorem sourceOf_eq (v : Nat) : sourceOf v = if v % 4 = 3 then none else some (axisSource v) := by
  have bound := Nat.mod_lt v (show 0 < 4 by decide)
  unfold sourceOf axisSource
  generalize v % 4 = m at *
  interval_cases m <;> rfl

theorem axisSource_ne {u v : Nat} (hu : u % 4 ≠ 3) (hv : v % 4 ≠ 3) : axisSource u ≠ axisSource v ↔ u % 4 ≠ v % 4 := by
  have boundU := Nat.mod_lt u (show 0 < 4 by decide)
  have boundV := Nat.mod_lt v (show 0 < 4 by decide)
  unfold axisSource
  generalize u % 4 = m at *
  generalize v % 4 = n at *
  interval_cases m <;> interval_cases n <;> simp at *

/-- The map of a settings block when its entries differ. -/
theorem axisMapOf_some {b : List Byte} (h : axesDiffer (fieldAt b 20 1) (fieldAt b 21 1) (fieldAt b 22 1)) : axisMapOf b =
    some ⟨⟨axisSource (fieldAt b 20 1), 128 ≤ fieldAt b 20 1⟩, ⟨axisSource (fieldAt b 21 1), 128 ≤ fieldAt b 21 1⟩,
      ⟨axisSource (fieldAt b 22 1), 128 ≤ fieldAt b 22 1⟩⟩ := by
  obtain ⟨yaw, pitch, roll, yawPitch, yawRoll, pitchRoll⟩ := h
  have differ := And.intro ((axisSource_ne yaw pitch).mpr yawPitch)
    (And.intro ((axisSource_ne yaw roll).mpr yawRoll) ((axisSource_ne pitch roll).mpr pitchRoll))
  simp only [axisMapOf, sourceOf_eq, yaw, pitch, roll, if_false]
  rw [if_pos differ]

theorem axisMapOf_none {b : List Byte} (h : ¬ axesDiffer (fieldAt b 20 1) (fieldAt b 21 1) (fieldAt b 22 1)) : axisMapOf b = none := by
  unfold axisMapOf
  simp only [sourceOf_eq]
  by_cases yaw : fieldAt b 20 1 % 4 = 3
  · simp [yaw]
  · by_cases pitch : fieldAt b 21 1 % 4 = 3
    · simp [yaw, pitch]
    · by_cases roll : fieldAt b 22 1 % 4 = 3
      · simp [yaw, pitch, roll]
      · simp only [yaw, pitch, roll, if_false]
        refine if_neg fun ⟨yawPitch, yawRoll, pitchRoll⟩ => h ⟨yaw, pitch, roll, ?_, ?_, ?_⟩
        · exact (axisSource_ne yaw pitch).mp yawPitch
        · exact (axisSource_ne yaw roll).mp yawRoll
        · exact (axisSource_ne pitch roll).mp pitchRoll

/-! ### The power level table -/

/-- The three rates of R30. -/
def rateWritten (hz : Nat) : Prop := hz = 500 ∨ hz = 1000 ∨ hz = 2000

theorem rateOf_written {hz : Nat} (h : rateWritten hz) : ∃ r : Rate, rateOf hz = some r ∧ r.hz = hz := by
  rcases h with rfl | rfl | rfl
  · exact ⟨.hz500, rfl, rfl⟩
  · exact ⟨.hz1000, rfl, rfl⟩
  · exact ⟨.hz2000, rfl, rfl⟩

theorem rateOf_other {hz : Nat} (h : ¬ rateWritten hz) : rateOf hz = none := by
  unfold rateWritten at h
  push Not at h
  obtain ⟨low, middle, high⟩ := h
  simp [rateOf, low, middle, high]

/-- The default of each field of the table (R30). -/
theorem defaultLevels_fields (n : Fin 8) :
    defaultLevels[n].lit = (#v[500, 800, 1000, 1200, 1400, 1600, 1800, 2000] : Vector Nat 8)[n] ∧
    defaultLevels[n].gain = (#v[4125, 8231, 11627, 16423, 20675, 26029, 32768, 32768] : Vector Nat 8)[n] ∧
    defaultLevels[n].rate.hz = (#v[500, 500, 1000, 1000, 1000, 1000, 2000, 2000] : Vector Nat 8)[n] := by
  revert n
  decide

/-- The three fields of an entry of the table are in range. -/
structure LevelOk (b : List Byte) (n : Fin 8) : Prop where
  lit : 100 ≤ fieldAt b (40 + 8 * n.val) 2 ∧ fieldAt b (40 + 8 * n.val) 2 ≤ 20000
  gain : fieldAt b (42 + 8 * n.val) 2 ≤ 32768
  rate : rateWritten (fieldAt b (44 + 8 * n.val) 2)

section
variable (b : List Byte) (n : Fin 8)

theorem levelOf_lit : (levelOf b n).1.lit =
    if 100 ≤ fieldAt b (40 + 8 * n.val) 2 ∧ fieldAt b (40 + 8 * n.val) 2 ≤ 20000 then fieldAt b (40 + 8 * n.val) 2
    else defaultLevels[n].lit := by
  simp [levelOf]

theorem levelOf_gain : (levelOf b n).1.gain =
    if fieldAt b (42 + 8 * n.val) 2 ≤ 32768 then fieldAt b (42 + 8 * n.val) 2 else defaultLevels[n].gain := by
  have at2 : 42 + 8 * n.val = 40 + 8 * n.val + 2 := by ring
  simp [levelOf, at2]

theorem levelOf_rate (written : rateWritten (fieldAt b (44 + 8 * n.val) 2)) : (levelOf b n).1.rate.hz = fieldAt b (44 + 8 * n.val) 2 := by
  have at4 : 44 + 8 * n.val = 40 + 8 * n.val + 4 := by ring
  rw [at4] at written ⊢
  obtain ⟨r, found, hz⟩ := rateOf_written written
  simp [levelOf, found, hz]

theorem levelOf_rate_default (other : ¬ rateWritten (fieldAt b (44 + 8 * n.val) 2)) :
    (levelOf b n).1.rate = defaultLevels[n].rate := by
  have at4 : 44 + 8 * n.val = 40 + 8 * n.val + 4 := by ring
  rw [at4] at other
  simp [levelOf, rateOf_other other]

theorem levelOf_replaced : (levelOf b n).2 = false ↔ LevelOk b n := by
  have at2 : 42 + 8 * n.val = 40 + 8 * n.val + 2 := by ring
  have at4 : 44 + 8 * n.val = 40 + 8 * n.val + 4 := by ring
  have parts : LevelOk b n ↔ (100 ≤ fieldAt b (40 + 8 * n.val) 2 ∧ fieldAt b (40 + 8 * n.val) 2 ≤ 20000) ∧
      fieldAt b (40 + 8 * n.val + 2) 2 ≤ 32768 ∧ rateWritten (fieldAt b (40 + 8 * n.val + 4) 2) :=
    ⟨fun h => ⟨h.lit, at2 ▸ h.gain, at4 ▸ h.rate⟩, fun ⟨lit, gain, rate⟩ => ⟨lit, at2 ▸ gain, at4 ▸ rate⟩⟩
  rw [parts]
  by_cases written : rateWritten (fieldAt b (40 + 8 * n.val + 4) 2)
  · obtain ⟨r, found, _⟩ := rateOf_written written
    simp [levelOf, found, written]
  · simp [levelOf, rateOf_other written, written]

end

/-! ### All settings -/

/-- Every setting of a block is as R29 and R30 ask. -/
structure SettingsOk (b : List Byte) : Prop where
  width : panelSizeOk (fieldAt b 0 2) = true
  height : panelSizeOk (fieldAt b 2 2) = true
  period : 6944 ≤ fieldAt b 4 4 ∧ fieldAt b 4 4 ≤ 20000
  lit : fieldAt b 8 4 + 500 ≤ (settingsOf b).1.framePeriod
  kx : 0x0100 ≤ fieldAt b 14 2
  ky : 0x0100 ≤ fieldAt b 16 2
  left : trimOk (signedAt b 18 1) = true
  right : trimOk (signedAt b 19 1) = true
  axes : axesDiffer (fieldAt b 20 1) (fieldAt b 21 1) (fieldAt b 22 1)
  grant : 500 ≤ fieldAt b 32 4 ∧ fieldAt b 32 4 ≤ 20000
  volts : 3000 ≤ fieldAt b 36 4 ∧ fieldAt b 36 4 ≤ 12000
  levels : ∀ n, LevelOk b n

theorem panelSizeOk_iff (v : Nat) : panelSizeOk v = true ↔ 256 ≤ v ∧ v ≤ 4096 ∧ v % 8 = 0 := by
  simp [panelSizeOk, and_assoc]

theorem trimOk_iff (v : Int) : trimOk v = true ↔ -64 ≤ v ∧ v ≤ 63 := by simp [trimOk]

section
variable (b : List Byte)

/-- The settings without the axis map and the table, each with its range. -/
theorem settingsOf_numbers :
    (settingsOf b).1.panelWidth = (if panelSizeOk (fieldAt b 0 2) = true then fieldAt b 0 2 else 1440) ∧
    (settingsOf b).1.panelHeight = (if panelSizeOk (fieldAt b 2 2) = true then fieldAt b 2 2 else 1600) ∧
    (settingsOf b).1.framePeriod = (if 6944 ≤ fieldAt b 4 4 ∧ fieldAt b 4 4 ≤ 20000 then fieldAt b 4 4 else 11111) ∧
    (settingsOf b).1.litOffset = (if fieldAt b 8 4 + 500 ≤ (settingsOf b).1.framePeriod then fieldAt b 8 4 else 1800) ∧
    (settingsOf b).1.kx = (if 0x0100 ≤ fieldAt b 14 2 then fieldAt b 14 2 else 0x1A80) ∧
    (settingsOf b).1.ky = (if 0x0100 ≤ fieldAt b 16 2 then fieldAt b 16 2 else 0x1A80) ∧
    (settingsOf b).1.trims.left = (if trimOk (signedAt b 18 1) = true then signedAt b 18 1 else 0) ∧
    (settingsOf b).1.trims.right = (if trimOk (signedAt b 19 1) = true then signedAt b 19 1 else 0) ∧
    (settingsOf b).1.defaultGrant = (if 500 ≤ fieldAt b 32 4 ∧ fieldAt b 32 4 ≤ 20000 then fieldAt b 32 4 else 4500) ∧
    (settingsOf b).1.undervoltage = (if 3000 ≤ fieldAt b 36 4 ∧ fieldAt b 36 4 ≤ 12000 then fieldAt b 36 4 else 4400) := by
  simp [settingsOf, defaultSettings]

theorem settingsOf_axes : (settingsOf b).1.axisMap = (axisMapOf b).getD defaultAxisMap := by
  simp only [settingsOf]
  cases axisMapOf b <;> rfl

theorem settingsOf_levels (n : Fin 8) : (settingsOf b).1.levels[n] = (levelOf b n).1 := by
  simp [settingsOf]

theorem settingsOf_replaced : (settingsOf b).2 = false ↔ SettingsOk b := by
  have axes : (match axisMapOf b with
      | some m => (m, false)
      | none => (defaultAxisMap, true) : Axes AxisSource × Bool).2 = false ↔
      axesDiffer (fieldAt b 20 1) (fieldAt b 21 1) (fieldAt b 22 1) := by
    by_cases differ : axesDiffer (fieldAt b 20 1) (fieldAt b 21 1) (fieldAt b 22 1)
    · simp [axisMapOf_some differ, differ]
    · simp [axisMapOf_none differ, differ]
  have levels : ([0, 1, 2, 3, 4, 5, 6, 7] : List (Fin 8)).any (fun n => (levelOf b n).2) = false ↔ ∀ n, LevelOk b n := by
    have every (n : Fin 8) : n ∈ ([0, 1, 2, 3, 4, 5, 6, 7] : List (Fin 8)) := by revert n; decide
    rw [List.any_eq_false]
    exact ⟨fun h n => (levelOf_replaced b n).mp (Bool.eq_false_iff.mpr (h n (every n))),
      fun h n _ => by simp [(levelOf_replaced b n).mpr (h n)]⟩
  have lit : (settingsOf b).1.framePeriod =
      (checked (6944 ≤ fieldAt b 4 4 && fieldAt b 4 4 ≤ 20000) (fieldAt b 4 4) defaultSettings.framePeriod).1 := rfl
  constructor
  · intro kept
    simp only [settingsOf, Bool.or_eq_false_iff, levels, checked_snd, Bool.not_eq_false'] at kept
    obtain ⟨⟨⟨⟨⟨⟨⟨⟨⟨⟨⟨width, height⟩, period⟩, l⟩, kx⟩, ky⟩, left⟩, right⟩, map⟩, grant⟩, volts⟩, levels⟩ := kept
    exact ⟨width, height, by simpa using period, by rw [lit]; simpa using l, by simpa using kx, by simpa using ky, left, right, axes.mp map,
      by simpa using grant, by simpa using volts, levels⟩
  · intro h
    have l := h.lit
    rw [lit] at l
    simp only [settingsOf, Bool.or_eq_false_iff, levels, checked_snd, Bool.not_eq_false']
    exact ⟨⟨⟨⟨⟨⟨⟨⟨⟨⟨⟨h.width, h.height⟩, by simpa using h.period⟩, by simpa using l⟩, by simpa using h.kx⟩, by simpa using h.ky⟩,
      h.left⟩, h.right⟩, axes.mpr h.axes⟩, by simpa using h.grant⟩, by simpa using h.volts⟩, h.levels⟩

end

end Sys2Proof.Machine

open Sys2Proof Sys2Proof.Machine

/-- Settles O5: the settings are those of the record, each checked. -/
theorem bootRecordSettings : Obligations.BootRecordSettings := by
  unfold Obligations.BootRecordSettings
  intro t flash s still due free
  refine ⟨(bootFrom flash).1, (bootFrom flash).2.1, (bootFrom flash).2.2, ?_, fun rejected => ?_, ?_⟩
  · dsimp only [exec, execBootRecordRead]
    rw [still]
    exact State.fire_eq (by simp [due, free]) rfl
  · cases flash with
    | none => exact ⟨rfl, rfl, rfl⟩
    | some r =>
      have defaults : bootFrom (some r) = (defaultSettings, .defaults, false) := if_neg (rejected r rfl)
      rw [defaults]
      exact ⟨rfl, rfl, rfl⟩
  · rintro r rfl marker length
    have from_record : bootFrom (some r) = ((settingsOf r.block).1, .flash, (settingsOf r.block).2) :=
      if_pos ⟨marker, length⟩
    rw [from_record]
    obtain ⟨width, height, period, lit, kx, ky, left, right, grant, volts⟩ := settingsOf_numbers r.block
    simp only [panelSizeOk_iff, trimOk_iff] at width height left right
    refine ⟨rfl, width, height, period, lit, rfl, rfl, kx, ky, left, right, fun axes => ?_, fun axes => ?_, rfl, grant, volts,
      fun n => ?_, ?_⟩
    · rw [settingsOf_axes, axisMapOf_some axes]; rfl
    · rw [settingsOf_axes, axisMapOf_none axes]; rfl
    · obtain ⟨dlit, dgain, drate⟩ := defaultLevels_fields n
      rw [settingsOf_levels, levelOf_lit, levelOf_gain, dlit, dgain]
      refine ⟨fun ok => if_pos ok, fun bad => if_neg bad, fun ok => if_pos ok, fun bad => if_neg bad, fun ok => levelOf_rate _ _ ok,
        fun bad => ?_⟩
      rw [levelOf_rate_default _ _ bad, drate]
    · rw [← Bool.not_eq_false, settingsOf_replaced]
      refine not_congr ⟨fun h => ?_, fun ⟨w, h, p, l, x, y, tl, tr, axes, g, v, levels⟩ => ?_⟩
      · exact ⟨(panelSizeOk_iff _).mp h.width, (panelSizeOk_iff _).mp h.height, h.period, h.lit, h.kx, h.ky, (trimOk_iff _).mp h.left,
          (trimOk_iff _).mp h.right, h.axes, h.grant, h.volts, fun n => ⟨(h.levels n).lit, (h.levels n).gain, (h.levels n).rate⟩⟩
      · exact ⟨(panelSizeOk_iff _).mpr w, (panelSizeOk_iff _).mpr h, p, l, x, y, (trimOk_iff _).mpr tl, (trimOk_iff _).mpr tr, axes, g, v,
          fun n => ⟨(levels n).1, (levels n).2.1, (levels n).2.2⟩⟩

end

section
/-! SUPPORT. The tether: the link, arriving messages and the notices (R1 to R7, R12, R16, R17, R169, section 11.6). -/

namespace Sys2Proof.Machine

/-! ### The link and the messages that arrive -/

/-- Freeing tags changes the tags alone. -/
theorem Tiu.setTags_eq (tags : List (Fin 32)) (u : Tiu) (x : TagState) : tags.foldl (fun (u : Tiu) tag => u.setTag tag x) u =
    { u with tags := (tags.foldl (fun (u : Tiu) tag => u.setTag tag x) u).tags } := by
  induction tags generalizing u with
  | nil => rfl
  | cons tag rest ih => rw [List.foldl_cons, ih]; rfl

/-- The form of a WRITE message (R2). -/
theorem writeOk_iff (addr : Word) (len : Half) (data : List Byte) : writeOk addr len data = true ↔
    addr.toNat % 4 = 0 ∧ len.toNat % 4 = 0 ∧ 4 ≤ len.toNat ∧ len.toNat ≤ 256 ∧ data.length = len.toNat := by
  simp only [writeOk, lengthOk, Bool.and_eq_true, beq_iff_eq, decide_eq_true_eq, and_assoc]
  exact Iff.rfl

/-- The form of a READ message (R2). -/
theorem readOk_iff (addr : Word) (len : Half) (tag : Byte) : readOk addr len tag = true ↔
    addr.toNat % 4 = 0 ∧ len.toNat % 4 = 0 ∧ 4 ≤ len.toNat ∧ len.toNat ≤ 256 ∧ tag.toNat < 32 := by
  simp only [readOk, lengthOk, Bool.and_eq_true, beq_iff_eq, decide_eq_true_eq, and_assoc]
  exact Iff.rfl

section
variable {s : State} (t : Time) (still : s.granted = s) (up : s.tiu.link = .up)
include still up

theorem exec_write_ok {addr : Word} {len : Half} {data : List Byte} (ok : writeOk addr len data = true) :
    exec (.write t addr len data) s = .next ({ s with now := t }.arriveWrite addr len.toNat data).settle := by
  dsimp only [exec, execWrite]
  rw [still]
  exact State.fire_eq (by simp [up]) (if_pos ok)

theorem exec_read_ok {addr : Word} {len : Half} {tag : Byte} (ok : readOk addr len tag = true) :
    exec (.read t addr len tag) s =
      .next ({ s with now := t }.arriveRead addr len.toNat (Fin.ofNat 32 tag.toNat)).settle := by
  dsimp only [exec, execRead]
  rw [still]
  exact State.fire_eq (by simp [up]) (if_pos ok)

end

/-- A request joins the queue; only the 48th, while RUNNING, sends HOLD (R12). -/
theorem Tiu.join_quiet (u : Tiu) (r : Request) (h : ¬ (u.queue.length = 47 ∧ u.flow = .running)) :
    u.join r = { u with queue := u.queue ++ [r] } := by
  unfold Tiu.join
  exact if_neg fun ⟨count, flow⟩ => h ⟨by simpa [Config.holdCount] using count, flow⟩

theorem Tiu.join_hold (u : Tiu) (r : Request) (count : u.queue.length = 47) (flow : u.flow = .running) :
    u.join r = { u with queue := u.queue ++ [r], flow := .held, flowOut := u.flowOut ++ [FlowMessage.hold] } := by
  unfold Tiu.join
  exact if_pos ⟨by simp [Config.holdCount, count], flow⟩

theorem Tiu.refuse_eq (u : Tiu) (tag : Fin 32) (o : ReadOutcome) : u.refuse tag o =
    { u with order := if u.order.countP Upstream.isRefusal < 32 then u.order ++ [.readData tag o []] else u.order } := by
  unfold Tiu.refuse Config.refusalLimit
  split <;> rfl

/-! ### Notice entries -/

/-- Three bytes read as one number. -/
theorem fieldAt_three (a b c : Nat) (rest : List Byte) : fieldAt (leBytes 1 a ++ (leBytes 1 b ++ (leBytes 1 c ++ rest))) 0 3 =
    a % 256 + 256 * (b % 256) + 65536 * (c % 256) := by
  simp only [fieldAt, leBytes, leValue, List.cons_append, List.nil_append, List.drop_zero, List.take_succ_cons, List.take_zero,
    BitVec.toNat_ofNat]
  omega

/-- What every entry of a notice holds, wherever and whenever it is posted (section 11.6). -/
def Notice.Entry (n : Notice) (kind detail low high : Nat) : Prop := ∀ (position : Nat) (time : Time),
  (⟨position, time, n⟩ : Posted).bytes.length = 16 ∧ fieldAt (⟨position, time, n⟩ : Posted).bytes 0 1 = kind ∧
  fieldAt (⟨position, time, n⟩ : Posted).bytes 1 3 = detail % 16777216 ∧
  fieldAt (⟨position, time, n⟩ : Posted).bytes 4 4 = time.toNat ∧
  fieldAt (⟨position, time, n⟩ : Posted).bytes 8 4 = low % 4294967296 ∧
  fieldAt (⟨position, time, n⟩ : Posted).bytes 12 4 = high % 4294967296

theorem Notice.code_lt (n : Notice) : n.code < 256 := by cases n <;> simp [Notice.code]

/-- An entry from the notice's code, detail bytes and data halves. -/
theorem Notice.entry_of {n : Notice} {kind detail low high : Nat} (code : n.code = kind)
    (details : n.detail.1 % 256 + 256 * (n.detail.2.1 % 256) + 65536 * (n.detail.2.2 % 256) = detail % 16777216)
    (first : n.data.1 % 4294967296 = low % 4294967296) (second : n.data.2 % 4294967296 = high % 4294967296) :
    n.Entry kind detail low high := by
  intro position time
  have small := n.code_lt
  have fits := time.isLt
  have bytes : (⟨position, time, n⟩ : Posted).bytes = leBytes 1 n.code ++ (leBytes 1 n.detail.1 ++ (leBytes 1 n.detail.2.1 ++
      (leBytes 1 n.detail.2.2 ++ (leBytes 4 time.toNat ++ (leBytes 4 n.data.1 ++ leBytes 4 n.data.2))))) := by
    simp only [Posted.bytes, List.append_assoc]
  rw [bytes]
  refine ⟨by simp only [List.length_append, leBytes_length], ?_, ?_, ?_, ?_, ?_⟩
  · rw [fieldAt_number _ _ _ _ _ (by decide), ← code]
    simp [Nat.mod_eq_of_lt small]
  · rw [fieldAt_behind _ _ _ _ _ (by decide), fieldAt_three, details]
  · simp only [fieldAt_behind, fieldAt_number, Nat.reduceSub, Nat.reduceLeDiff, Nat.reduceAdd]
    simpa using Nat.mod_eq_of_lt fits
  · simp only [fieldAt_behind, fieldAt_number, Nat.reduceSub, Nat.reduceLeDiff, Nat.reduceAdd]
    simpa using first
  · simp only [fieldAt_behind, fieldAt_leBytes, Nat.reduceSub, Nat.reduceLeDiff]
    simpa using second

theorem Reason.code_lt (r : Reason) : r.code < 256 := by cases r <;> decide

theorem LayoutFault.code_lt (f : LayoutFault) : f.code < 256 := by cases f <;> decide

theorem CueMode.code_lt (m : CueMode) : m.code < 256 := by cases m <;> decide

theorem CueFault.code_lt (f : CueFault) : f.code < 256 := by cases f <;> decide

theorem StopWhere.code_lt (w : StopWhere) : w.code < 256 := by cases w <;> decide

theorem LevelCause.code_lt (c : LevelCause) : c.code < 256 := by cases c <;> decide

theorem JobKind.code_lt (k : JobKind) : k.code < 256 := by cases k <;> decide

theorem JobOutcome.code_lt (o : JobOutcome) : o.code < 256 := by cases o <;> decide

end Sys2Proof.Machine

open Sys2Proof Sys2Proof.Machine

/-- Settles O6: by the branches of each step. -/
theorem linkWorks : Obligations.LinkWorks := by
  unfold Obligations.LinkWorks
  intro t s still
  refine ⟨fun ready down running few => ?_, fun ready down running many => ?_, fun up => ?_, fun up => ?_, fun addr len data up bad => ?_,
    fun addr len tag up bad => ?_⟩
  · dsimp only [exec, execLinkUp]
    rw [still]
    exact State.fire_eq (by simp [ready, down]) (by rw [if_neg (by simp only [Config.holdCount]; omega)])
  · dsimp only [exec, execLinkUp]
    rw [still]
    exact State.fire_eq (by simp [ready, down]) (by rw [if_pos ⟨many, running⟩]; rfl)
  · have freed (tag : Fin 32) := Tiu.setTags_tags (okTags s.tiu.order)
      { s.tiu with link := .down, flow := .running, order := [], flowOut := [], sending := none } tag .free
    refine ⟨((okTags s.tiu.order).foldl (fun (u : Tiu) tag => u.setTag tag .free)
      { s.tiu with link := .down, flow := .running, order := [], flowOut := [], sending := none }).tags, ?_, fun tag => ?_⟩
    · dsimp only [exec, execLinkDown]
      rw [still]
      exact State.fire_eq (by simp [up]) (by rw [Tiu.setTags_eq])
    · rw [freed]
      refine if_congr ?_ rfl rfl
      rw [mem_okTags, List.countP_pos_iff, List.any_eq_true]
  · dsimp only [exec, execBadMessage]
    rw [still]
    exact State.fire_eq (by simp [up]) rfl
  · dsimp only [exec, execWrite]
    rw [still]
    exact State.fire_eq (by simp [up]) (if_neg fun ok => bad ((writeOk_iff addr len data).mp ok))
  · dsimp only [exec, execRead]
    rw [still]
    exact State.fire_eq (by simp [up]) (if_neg fun ok => bad ((readOk_iff addr len tag).mp ok))

/-- Settles O7: by the checks of an arriving WRITE in their order. -/
theorem writeArrives : Obligations.WriteArrives := by
  unfold Obligations.WriteArrives
  intro t s addr len data still up aligned lenAligned lenLow lenHigh same
  have arrives := exec_write_ok t still up ((writeOk_iff addr len data).mpr ⟨aligned, lenAligned, lenLow, lenHigh, same⟩)
  dsimp only
  rw [arrives]
  unfold State.arriveWrite
  refine ⟨fun beyond => ?_, fun inside full => ?_, fun inside room quiet => ?_, fun inside count running => ?_⟩
  · rw [if_pos (show addr.toNat + len.toNat > Config.dramSize from beyond)]
  · rw [if_neg (show ¬ addr.toNat + len.toNat > Config.dramSize from Nat.not_lt.mpr inside), if_pos (show Config.queueLimit ≤ _ from full)]
  · rw [if_neg (show ¬ addr.toNat + len.toNat > Config.dramSize from Nat.not_lt.mpr inside),
      if_neg (show ¬ Config.queueLimit ≤ _ from Nat.not_le.mpr room), Tiu.join_quiet _ _ quiet]
  · rw [if_neg (show ¬ addr.toNat + len.toNat > Config.dramSize from Nat.not_lt.mpr inside),
      if_neg (by show ¬ 64 ≤ s.tiu.queue.length; omega), Tiu.join_hold _ _ count running]

/-- Settles O8: by the checks of an arriving READ in their order. -/
theorem readArrives : Obligations.ReadArrives := by
  unfold Obligations.ReadArrives
  intro t s addr len tag x still up aligned lenAligned lenLow lenHigh same
  have tagged : Fin.ofNat 32 tag.toNat = x := Fin.ext (by rw [same]; exact Nat.mod_eq_of_lt x.isLt)
  have arrives := exec_read_ok t still up
    ((readOk_iff addr len tag).mpr ⟨aligned, lenAligned, lenLow, lenHigh, by rw [same]; exact x.isLt⟩)
  dsimp only
  rw [arrives, tagged]
  unfold State.arriveRead
  refine ⟨fun beyond => ?_, fun inside taken => ?_, fun inside free full => ?_, fun inside free room quiet => ?_,
    fun inside free count running => ?_⟩
  · rw [if_pos (show addr.toNat + len.toNat > Config.dramSize from beyond), Tiu.refuse_eq]
  · rw [if_neg (show ¬ addr.toNat + len.toNat > Config.dramSize from Nat.not_lt.mpr inside), if_pos taken, Tiu.refuse_eq]
  · rw [if_neg (show ¬ addr.toNat + len.toNat > Config.dramSize from Nat.not_lt.mpr inside), if_neg (by simp only [free]; decide),
      if_pos (show Config.queueLimit ≤ _ from full), Tiu.refuse_eq]
  · rw [if_neg (show ¬ addr.toNat + len.toNat > Config.dramSize from Nat.not_lt.mpr inside), if_neg (by simp only [free]; decide),
      if_neg (show ¬ Config.queueLimit ≤ _ from Nat.not_le.mpr room), Tiu.join_quiet (s.tiu.setTag x .outstanding) _ quiet]
    rfl
  · rw [if_neg (show ¬ addr.toNat + len.toNat > Config.dramSize from Nat.not_lt.mpr inside), if_neg (by simp only [free]; decide),
      if_neg (by show ¬ 64 ≤ s.tiu.queue.length; omega), Tiu.join_hold (s.tiu.setTag x .outstanding) _ count running]
    rfl

/-- Settles O9: the posting by its room; each entry by its code, its detail bytes and its data halves. -/
theorem noticePosted : Obligations.NoticePosted := by
  unfold Obligations.NoticePosted
  refine ⟨fun t s => ⟨fun n room => ?_, fun n full => ?_, fun markId consoleTime still up => ?_⟩, ?_, by decide, by decide, by decide,
    by decide, by decide, by decide, by decide, by decide⟩
  · rw [State.post, Hku.post_room _ _ _ room]
  · rw [State.post, Hku.post_full _ _ _ (Nat.not_lt.mpr full)]
  · dsimp only [exec, execTimeMark]
    rw [still]
    exact State.fire_eq (by simp [up]) rfl
  · refine ⟨fun reason i code tag => ⟨Notice.entry_of rfl ?_ rfl rfl, fun e f => Notice.entry_of rfl ?_ rfl rfl⟩,
      fun a b => ⟨Notice.entry_of rfl rfl rfl rfl, Notice.entry_of rfl rfl rfl rfl, Notice.entry_of rfl rfl rfl rfl⟩,
      fun i tag => Notice.entry_of rfl rfl rfl rfl,
      fun n a => ⟨Notice.entry_of rfl ?_ rfl rfl, Notice.entry_of rfl ?_ rfl rfl⟩,
      fun id c => Notice.entry_of rfl ?_ ?_ rfl,
      fun k v q => ⟨Notice.entry_of rfl ?_ rfl rfl, Notice.entry_of rfl ?_ rfl rfl, Notice.entry_of rfl ?_ rfl rfl⟩,
      fun k n small => Notice.entry_of rfl ?_ rfl rfl,
      fun w n small => Notice.entry_of rfl ?_ rfl rfl,
      fun x => ⟨Notice.entry_of rfl rfl rfl rfl, Notice.entry_of rfl rfl rfl rfl⟩,
      fun p q => ⟨Notice.entry_of rfl ?_ rfl rfl, Notice.entry_of rfl ?_ rfl rfl, Notice.entry_of rfl ?_ rfl rfl,
        Notice.entry_of rfl ?_ rfl rfl, Notice.entry_of rfl rfl rfl rfl⟩,
      fun i m n f => ⟨Notice.entry_of rfl ?_ rfl rfl, Notice.entry_of rfl ?_ rfl rfl, Notice.entry_of rfl ?_ rfl rfl⟩,
      fun b a c n v i => ⟨Notice.entry_of rfl ?_ rfl rfl, Notice.entry_of rfl ?_ rfl rfl⟩,
      fun k o tag n => Notice.entry_of rfl ?_ rfl rfl⟩
    all_goals simp only [Notice.detail, Notice.data]
    · have := reason.code_lt
      omega
    · have := reason.code_lt
      have := f.code_lt
      omega
    · omega
    · omega
    · have := id.isLt
      omega
    · omega
    · omega
    · omega
    · omega
    · omega
    · have := w.code_lt
      omega
    · omega
    · omega
    · omega
    · omega
    · have := m.code_lt
      omega
    · have := m.code_lt
      omega
    · have := m.code_lt
      have := f.code_lt
      omega
    · have := c.code_lt
      omega
    · omega
    · have := k.code_lt
      have := o.code_lt
      omega

end

section
/-! SUPPORT. Requests answered and watched words taken (R5, R8 to R10, R15, R24, R36, R75, R82, R139, R147, R156, R171). -/

namespace Sys2Proof.Machine

/-! ### Answers -/

theorem serviceOf_map (f : Watched × Nat → Watched × Word) (watched : List (Watched × Nat)) :
    serviceOf (watched.map f) = if watched = [] then .idle else .raising (watched.map f) := by
  cases watched <;> rfl

theorem Upstream.readData_bytes (tag : Fin 32) (o : ReadOutcome) (data : List Byte) : (Upstream.readData tag o data).bytes =
    leBytes 1 0x81 ++ (leBytes 1 tag.val ++ (leBytes 2 o.code ++ (leBytes 2 data.length ++ data))) := by
  simp only [Upstream.bytes, List.append_assoc]

theorem ReadOutcome.code_lt (o : ReadOutcome) : o.code < 256 := by cases o <;> decide

/-- The fields of an answer (section 11.2). -/
theorem Upstream.readData_fields (tag : Fin 32) (o : ReadOutcome) (data : List Byte) :
    fieldAt (Upstream.readData tag o data).bytes 0 1 = 0x81 ∧ fieldAt (Upstream.readData tag o data).bytes 1 1 = tag.val ∧
    fieldAt (Upstream.readData tag o data).bytes 2 1 = o.code ∧ fieldAt (Upstream.readData tag o data).bytes 3 1 = 0 ∧
    fieldAt (Upstream.readData tag o data).bytes 4 2 = data.length % 65536 := by
  have small := tag.isLt
  have code := o.code_lt
  rw [Upstream.readData_bytes]
  refine ⟨?_, ?_, ?_, ?_, ?_⟩ <;> simp [fieldAt_number, fieldAt_behind] <;> omega

theorem Upstream.readData_data (tag : Fin 32) (o : ReadOutcome) (data : List Byte) :
    (Upstream.readData tag o data).bytes.drop 6 = data := by
  rw [Upstream.readData_bytes, ← List.append_assoc, ← List.append_assoc, ← List.append_assoc]
  exact List.drop_left' (by simp only [List.length_append, leBytes_length])

theorem Upstream.attention_fields (position kind : Nat) : (Upstream.attention position kind).bytes.length = 3 ∧
    fieldAt (Upstream.attention position kind).bytes 0 1 = 0x84 ∧
    fieldAt (Upstream.attention position kind).bytes 1 1 = position % 256 ∧
    fieldAt (Upstream.attention position kind).bytes 2 1 = kind % 256 := by
  simp [Upstream.bytes, List.append_assoc, fieldAt_number, fieldAt_behind, fieldAt_leBytes]

/-- The message in transmission leaves (R15). -/
theorem exec_upstreamMessageSent {s u : State} {t : Time} (still : s.granted = s) (x : Sending) (sending : s.tiu.sending = some x)
    (makes : { s with
      now := t
      tiu := match x, s.tiu.order with
        | .order, .readData tag .ok _ :: rest => { s.tiu with sending := none, order := rest }.setTag tag .free
        | .order, _ :: rest => { s.tiu with sending := none, order := rest }
        | .order, [] => { s.tiu with sending := none }
        | .flow, _ => { s.tiu with sending := none, flowOut := s.tiu.flowOut.tail } } = u) :
    exec (.upstreamMessageSent t) s = .next u.settle := by
  dsimp only [exec, execUpstreamMessageSent]
  rw [still]
  refine State.fire_eq (by rw [sending]; rfl) ?_
  rw [← makes]
  simp only [sending]
  cases x with
  | flow => rfl
  | order =>
    cases s.tiu.order with
    | nil => rfl
    | cons m rest =>
      cases m with
      | attention position kind => rfl
      | readData tag o data => cases o <;> rfl

/-! ### Words that are compared (R36, R156) -/

section
variable {s : State}

theorem State.takeCaptureConsumer_layout {l : Layout} (layout : s.hku.layout = some l) (v : Word) :
    s.takeCaptureConsumer v = { s with au.captureConsumer := heldConsumer s.au.captureProducer v l.capture.size } := by
  simp only [State.takeCaptureConsumer, State.captureLength, layout, Option.map_some]

theorem State.takeCaptureConsumer_free (layout : s.hku.layout = none) (v : Word) :
    s.takeCaptureConsumer v =
      if signedDiff s.au.captureProducer v ≤ 0 then { s with au.captureConsumer := s.au.captureProducer }
      else { s with au.captureConsumer := Config.freeCount s.freeIndex, freeIndex := s.freeIndex + 1 } := by
  simp only [State.takeCaptureConsumer, State.captureLength, layout, Option.map_none]

theorem State.compareProducer_near (low : 0 ≤ (s.hku.latest - s.hku.consumer).toInt)
    (near : (s.hku.latest - s.hku.consumer).toInt ≤ 32) : s.compareProducer = { s with hku.compareDue := false } := by
  unfold State.compareProducer signedDiff
  rw [if_neg (Int.not_lt.mpr near), if_neg (Int.not_lt.mpr low)]

theorem State.compareProducer_far (far : 32 < (s.hku.latest - s.hku.consumer).toInt) : s.compareProducer =
    { s with hku := { s.hku with compareDue := false, consumer := s.hku.latest - 32, consumerDue := true } }.post
      (.commandsLost (BitVec.ofInt 32 ((s.hku.latest - s.hku.consumer).toInt - 32)) (s.hku.latest - 32)) := by
  unfold State.compareProducer signedDiff
  rw [if_pos far]

theorem State.compareProducer_behind (behind : (s.hku.latest - s.hku.consumer).toInt < 0) : s.compareProducer =
    { s with hku := { s.hku with compareDue := false, consumer := s.hku.latest, consumerDue := true } }.post
      (.commandsLost 0 s.hku.latest) := by
  unfold State.compareProducer signedDiff
  rw [if_neg (by omega), if_pos behind]

end

end Sys2Proof.Machine

open Sys2Proof Sys2Proof.Machine

/-- Settles O11: each completion by its kind, each message by its layout. -/
theorem requestsAnswered : Obligations.RequestsAnswered := by
  unfold Obligations.RequestsAnswered
  refine ⟨fun t s => ⟨fun a port inside => ⟨fun watched kind => ?_, fun tag kind up => ?_, fun tag kind down => ?_⟩,
    fun m rest still sending out => ?_, fun tag data rest still sending order => ?_, fun m rest still sending order other => ?_⟩,
    fun tag o data => ?_, fun position kind => Upstream.attention_fields position kind, by decide, by decide, by decide⟩
  · dsimp only [exec, execInboundWriteDone]
    exact State.portDone_eq port inside watched (by rw [kind]) (by rw [serviceOf_map]; rfl)
  · dsimp only [exec, execInboundReadDone]
    exact State.portDone_eq port inside tag (by rw [kind]) (by rw [if_pos (by exact up)]; rfl)
  · dsimp only [exec, execInboundReadDone]
    exact State.portDone_eq port inside tag (by rw [kind]) (by rw [if_neg (by show ¬ s.tiu.link = _; rw [down]; decide)]; rfl)
  · exact exec_upstreamMessageSent still .flow sending (by simp only [out, List.tail_cons])
  · exact exec_upstreamMessageSent still .order sending (by simp only [order]; rfl)
  · refine exec_upstreamMessageSent still .order sending ?_
    cases m with
    | attention position kind => simp only [order]
    | readData x o data =>
      cases o with
      | ok => rcases other with other | other <;> cases other
      | refusedFull | tagInUse | outOfRange => simp only [order]
  · obtain ⟨kind, tagged, code, pad, length⟩ := Upstream.readData_fields tag o data
    exact ⟨kind, tagged, code, pad, length, Upstream.readData_data tag o data⟩

/-- Settles O12: by the difference of the producer value and the count. -/
theorem housekeepingWordsTaken : Obligations.HousekeepingWordsTaken := by
  unfold Obligations.HousekeepingWordsTaken
  intro t s v rest before
  refine ⟨fun event busy => ?_, fun event idle low near => ?_, fun event idle far => ?_, fun event idle behind => ?_, fun event => ?_⟩
  · dsimp only [exec, execCommandProducer]
    exact State.takeEvent_eq before event () rfl (by rw [State.takeProducer, if_neg busy]; rfl)
  · dsimp only [exec, execCommandProducer]
    exact State.takeEvent_eq before event () rfl
      (by rw [State.takeProducer, if_pos idle, State.compareProducer_near (by exact low) (by exact near)]; rfl)
  · dsimp only [exec, execCommandProducer]
    exact State.takeEvent_eq before event () rfl
      (by rw [State.takeProducer, if_pos idle, State.compareProducer_far (by exact far)]; rfl)
  · dsimp only [exec, execCommandProducer]
    exact State.takeEvent_eq before event () rfl
      (by rw [State.takeProducer, if_pos idle, State.compareProducer_behind (by exact behind)]; rfl)
  · dsimp only [exec, execNoticeConsumer]
    exact State.takeEvent_eq before event () rfl rfl

/-- Settles O13: by the value and by what a cleared hold flips. -/
theorem poseHoldTaken : Obligations.PoseHoldTaken := by
  unfold Obligations.PoseHoldTaken
  intro t s v rest before event
  refine ⟨fun sets => ?_, fun clears runs reset missed => ?_, fun clears stays => ?_⟩
  · dsimp only [exec, execPoseHold]
    exact State.takeEvent_eq before event () rfl (by rw [Mu.takeHold, if_pos sets]; rfl)
  · dsimp only [exec, execPoseHold]
    exact State.takeEvent_eq before event () rfl
      (by rw [Mu.takeHold, if_neg (not_not.mpr clears), if_pos ⟨runs, reset, missed⟩]; rfl)
  · have keeps : ¬ (s.mu.motion ≠ .off ∧ s.mu.pub.exchange.resetDue = false ∧ s.mu.pub.exchange.missed = true) := by
      rintro ⟨runs, reset, missed⟩
      rcases stays with off | due | none_missed
      · exact runs off
      · exact absurd (reset.symm.trans due) (by decide)
      · exact absurd (missed.symm.trans none_missed) (by decide)
    dsimp only [exec, execPoseHold]
    exact State.takeEvent_eq before event () rfl (by rw [Mu.takeHold, if_neg (not_not.mpr clears), if_neg keeps]; rfl)

/-- Settles O14: each word by the branches of its taking. -/
theorem audioWordsTaken : Obligations.AudioWordsTaken := by
  unfold Obligations.AudioWordsTaken
  intro t s v rest before
  refine ⟨fun event => ?_, fun event l layout => ?_, fun event layout => ?_, fun event clear => ?_, fun event set_ none_pending => ?_,
    fun event set_ index mode pending => ?_⟩
  · dsimp only [exec, execPlaybackProducer]
    exact State.takeEvent_eq before event () rfl rfl
  · dsimp only [exec, execCaptureConsumer]
    exact State.takeEvent_eq before event () rfl (State.takeCaptureConsumer_layout (by exact layout) v)
  · dsimp only [exec, execCaptureConsumer]
    by_cases near : signedDiff s.au.captureProducer v ≤ 0
    · exact ⟨s.au.captureProducer, s.freeIndex, State.takeEvent_eq before event () rfl
        ((State.takeCaptureConsumer_free (by exact layout) v).trans (if_pos near)), fun _ => rfl⟩
    · exact ⟨Config.freeCount s.freeIndex, s.freeIndex + 1, State.takeEvent_eq before event () rfl
        ((State.takeCaptureConsumer_free (by exact layout) v).trans (if_neg near)), fun d => absurd d near⟩
  · dsimp only [exec, execCueRequest]
    exact State.takeEvent_eq before event () rfl (by rw [State.takeCueRequest, if_neg (by rw [clear]; decide)]; rfl)
  · dsimp only [exec, execCueRequest]
    exact State.takeEvent_eq before event () rfl (by rw [State.takeCueRequest, if_pos set_]; simp only [none_pending]; rfl)
  · dsimp only [exec, execCueRequest]
    exact State.takeEvent_eq before event () rfl (by rw [State.takeCueRequest, if_pos set_]; simp only [pending]; rfl)

/-- Settles O15: by the value and by the slot's copy-pending count. -/
theorem slotSubmitted : Obligations.SlotSubmitted := by
  unfold Obligations.SlotSubmitted
  intro t s k v rest before event free
  refine ⟨fun zero => ?_, fun nonzero quiet => ?_, fun nonzero pending => ?_⟩
  · dsimp only [exec, execSubmitWord]
    exact State.takeEvent_eq before event k rfl (by rw [Fcu.submit, if_neg fun h => h.1 zero]; rfl)
  · dsimp only [exec, execSubmitWord]
    exact State.takeEvent_eq before event k rfl
      (by simp only [Fcu.submit, if_pos (And.intro nonzero free), if_pos quiet, Fcu.update, Slot.submitted]; rfl)
  · dsimp only [exec, execSubmitWord]
    exact State.takeEvent_eq before event k rfl
      (by simp only [Fcu.submit, if_pos (And.intro nonzero free), if_neg pending, Fcu.update, Slot.submitted]; rfl)

end

section
/-! SUPPORT. The region table (R32, R34): its faults entry by entry. -/

namespace Sys2Proof.Machine

/-- Two ranges share a byte. -/
theorem sharesByte_iff (b₁ n₁ b₂ n₂ : Nat) :
    sharesByte b₁ n₁ b₂ n₂ = true ↔ ∃ a, (b₁ ≤ a ∧ a < b₁ + n₁) ∧ (b₂ ≤ a ∧ a < b₂ + n₂) := by
  simp only [sharesByte, decide_eq_true_eq]
  constructor
  · intro h
    exact ⟨max b₁ b₂, by omega, by omega⟩
  · rintro ⟨a, first, second⟩
    omega

/-- An entry of the table by its number. -/
def Layout.entry (l : Layout) : Fin 4 → Nat × Region × Nat
  | 0 => (0, l.frameArea, 4)
  | 1 => (1, l.poseRing, 32)
  | 2 => (2, l.playback, 4)
  | 3 => (3, l.capture, 208)

def Layout.entryBase (l : Layout) (e : Fin 4) : Nat := (l.entry e).2.1.base

def Layout.entryExtent (l : Layout) (e : Fin 4) : Nat := (l.entry e).2.1.size * (l.entry e).2.2

theorem Layout.entries_eq (l : Layout) : l.entries = allSlots.map l.entry := rfl

theorem Layout.entry_number (l : Layout) (e : Fin 4) : (l.entry e).1 = e.val := by fin_cases e <;> rfl

/-- The size of an entry is allowed (R32). -/
def Layout.Sized (l : Layout) (slotSize : Nat) (e : Fin 4) : Prop := sizeOk slotSize (l.entry e).1 (l.entry e).2.1.size = true

/-- Two entries share a byte. -/
def Layout.Shares (l : Layout) (e o : Fin 4) : Prop :=
  ∃ a, (l.entryBase e ≤ a ∧ a < l.entryBase e + l.entryExtent e) ∧ (l.entryBase o ≤ a ∧ a < l.entryBase o + l.entryExtent o)

theorem Layout.Shares.symm {l : Layout} {e o : Fin 4} (h : l.Shares e o) : l.Shares o e := by
  obtain ⟨a, first, second⟩ := h
  exact ⟨a, second, first⟩

/-- An entry without fault. -/
structure Layout.EntryOk (l : Layout) (slotSize : Nat) (e : Fin 4) : Prop where
  sized : l.Sized slotSize e
  aligned : l.entryBase e % 256 = 0
  inside : l.entryBase e + l.entryExtent e ≤ 0x20000000
  beyond : 0x1000 ≤ l.entryBase e
  apart : ∀ o, o ≠ e → ¬ l.Shares e o

section
variable (l : Layout) (slotSize : Nat) (e : Fin 4)

/-- An entry overlaps another. -/
def Layout.overlaps : Bool :=
  l.entries.any fun o => o.1 ≠ (l.entry e).1 && sharesByte (l.entryBase e) (l.entryExtent e) o.2.1.base (o.2.1.size * o.2.2)

theorem Layout.overlaps_iff : l.overlaps e = true ↔ ∃ o, o ≠ e ∧ l.Shares e o := by
  simp only [Layout.overlaps, l.entries_eq, List.any_map, List.any_eq_true, Function.comp_apply, Bool.and_eq_true, decide_eq_true_eq, sharesByte_iff,
    l.entry_number, mem_allSlots, true_and]
  exact exists_congr fun o => and_congr_left fun _ => not_congr Fin.val_inj

/-- The checks of an entry in their order (R34). -/
theorem entryFault_eq : entryFault slotSize l (l.entry e) =
    if !sizeOk slotSize (l.entry e).1 (l.entry e).2.1.size then some .size
    else if l.entryBase e % 256 ≠ 0 then some .align
    else if 0x20000000 < l.entryBase e + l.entryExtent e then some .outside
    else if l.entryBase e < 0x1000 then some .anchor
    else if l.overlaps e then some .overlap
    else none := rfl

section
variable {l slotSize e}

theorem entryFault_size (h : ¬ l.Sized slotSize e) : entryFault slotSize l (l.entry e) = some .size := by
  rw [Layout.Sized, Bool.not_eq_true] at h
  rw [entryFault_eq, if_pos (by rw [h]; rfl)]

theorem entryFault_align (sized : l.Sized slotSize e) (h : l.entryBase e % 256 ≠ 0) :
    entryFault slotSize l (l.entry e) = some .align := by
  rw [Layout.Sized] at sized
  rw [entryFault_eq, if_neg (by rw [sized]; decide), if_pos h]

theorem entryFault_outside (sized : l.Sized slotSize e) (aligned : l.entryBase e % 256 = 0)
    (h : ¬ l.entryBase e + l.entryExtent e ≤ 0x20000000) : entryFault slotSize l (l.entry e) = some .outside := by
  rw [Layout.Sized] at sized
  rw [entryFault_eq, if_neg (by rw [sized]; decide), if_neg (not_not.mpr aligned), if_pos (Nat.not_le.mp h)]

theorem entryFault_anchor (sized : l.Sized slotSize e) (aligned : l.entryBase e % 256 = 0)
    (inside : l.entryBase e + l.entryExtent e ≤ 0x20000000) (h : ¬ 0x1000 ≤ l.entryBase e) :
    entryFault slotSize l (l.entry e) = some .anchor := by
  rw [Layout.Sized] at sized
  rw [entryFault_eq, if_neg (by rw [sized]; decide), if_neg (not_not.mpr aligned), if_neg (Nat.not_lt.mpr inside),
    if_pos (Nat.not_le.mp h)]

theorem entryFault_beyond (sized : l.Sized slotSize e) (aligned : l.entryBase e % 256 = 0)
    (inside : l.entryBase e + l.entryExtent e ≤ 0x20000000) (beyond : 0x1000 ≤ l.entryBase e) :
    entryFault slotSize l (l.entry e) = if l.overlaps e then some .overlap else none := by
  rw [Layout.Sized] at sized
  rw [entryFault_eq, if_neg (by rw [sized]; decide), if_neg (not_not.mpr aligned), if_neg (Nat.not_lt.mpr inside),
    if_neg (Nat.not_lt.mpr beyond)]

end

theorem entryFault_none : entryFault slotSize l (l.entry e) = none ↔ l.EntryOk slotSize e := by
  by_cases sized : l.Sized slotSize e
  · by_cases aligned : l.entryBase e % 256 = 0
    · by_cases inside : l.entryBase e + l.entryExtent e ≤ 0x20000000
      · by_cases beyond : 0x1000 ≤ l.entryBase e
        · rw [entryFault_beyond sized aligned inside beyond, ite_eq_right_iff]
          rw [l.overlaps_iff e]
          refine ⟨fun apart => ⟨sized, aligned, inside, beyond, fun o other shares => ?_⟩, fun ok ⟨o, other, shares⟩ => ?_⟩
          · cases apart ⟨o, other, shares⟩
          · exact absurd shares (ok.apart o other)
        · rw [entryFault_anchor sized aligned inside beyond]
          exact ⟨nofun, fun ok => absurd ok.beyond beyond⟩
      · rw [entryFault_outside sized aligned inside]
        exact ⟨nofun, fun ok => absurd ok.inside inside⟩
    · rw [entryFault_align sized aligned]
      exact ⟨nofun, fun ok => absurd ok.aligned aligned⟩
  · rw [entryFault_size sized]
    exact ⟨nofun, fun ok => absurd ok.sized sized⟩

theorem Layout.fault_none : l.fault slotSize = none ↔ ∀ e, l.EntryOk slotSize e := by
  simp only [Layout.fault, l.entries_eq, List.findSome?_eq_none_iff, List.mem_map, Option.map_eq_none_iff]
  exact ⟨fun h e => (entryFault_none l slotSize e).mp (h _ ⟨e, mem_allSlots e, rfl⟩),
    fun h _ ⟨e, _, same⟩ => same ▸ (entryFault_none l slotSize e).mpr (h e)⟩

/-- The lowest-numbered faulty entry is reported. -/
theorem Layout.fault_some (before : ∀ d, d < e → l.EntryOk slotSize d) {f : LayoutFault}
    (faulty : entryFault slotSize l (l.entry e) = some f) : l.fault slotSize = some (e.val, f) := by
  have sound (d : Fin 4) (h : d < e) := (entryFault_none l slotSize d).mpr (before d h)
  have found : (l.entries.findSome? fun x => (entryFault slotSize l x).map fun y => (x.1, y)) = some ((l.entry e).1, f) := by
    simp only [l.entries_eq, allSlots, List.map_cons, List.map_nil]
    fin_cases e
    · simp [show entryFault slotSize l (l.entry 0) = some f from faulty]
    · simp [show entryFault slotSize l (l.entry 1) = some f from faulty, sound 0 (by decide)]
    · simp [show entryFault slotSize l (l.entry 2) = some f from faulty, sound 0 (by decide), sound 1 (by decide)]
    · simp [show entryFault slotSize l (l.entry 3) = some f from faulty, sound 0 (by decide), sound 1 (by decide),
        sound 2 (by decide)]
  rw [Layout.fault, found, l.entry_number]

end

theorem Layout.sized_iff (l : Layout) (slotSize : Nat) :
    (l.Sized slotSize 0 ↔ slotSize ≤ l.frameArea.size ∧ l.frameArea.size ≤ 0x20000000 ∧ l.frameArea.size % 256 = 0) ∧
    (l.Sized slotSize 1 ↔ 16 ≤ l.poseRing.size ∧ l.poseRing.size ≤ 4096) ∧
    (l.Sized slotSize 2 ↔ 1024 ≤ l.playback.size ∧ l.playback.size ≤ 262144 ∧ l.playback.size % 48 = 0) ∧
    (l.Sized slotSize 3 ↔ 16 ≤ l.capture.size ∧ l.capture.size ≤ 1024) := by
  refine ⟨?_, ?_, ?_, ?_⟩
  · show (decide (slotSize ≤ l.frameArea.size) && decide (l.frameArea.size ≤ Config.dramSize) && l.frameArea.size % 256 == 0) = true ↔ _
    simp only [Bool.and_eq_true, decide_eq_true_eq, beq_iff_eq, and_assoc]
    exact Iff.rfl
  · show (decide (16 ≤ l.poseRing.size) && decide (l.poseRing.size ≤ 4096)) = true ↔ _
    simp only [Bool.and_eq_true, decide_eq_true_eq]
  · show (decide (1024 ≤ l.playback.size) && decide (l.playback.size ≤ 262144) && l.playback.size % 48 == 0) = true ↔ _
    simp only [Bool.and_eq_true, decide_eq_true_eq, beq_iff_eq, and_assoc]
  · show (decide (16 ≤ l.capture.size) && decide (l.capture.size ≤ 1024)) = true ↔ _
    simp only [Bool.and_eq_true, decide_eq_true_eq]

theorem forall_entries {P : Fin 4 → Prop} : (∀ e, P e) ↔ P 0 ∧ P 1 ∧ P 2 ∧ P 3 :=
  ⟨fun h => ⟨h 0, h 1, h 2, h 3⟩, fun ⟨h0, h1, h2, h3⟩ e => by fin_cases e <;> assumption⟩

/-- Every entry without fault, written out: the sizes, the places, and six pairs apart. -/
theorem Layout.sound_iff (l : Layout) (slotSize : Nat) : (∀ e, l.EntryOk slotSize e) ↔
    (∀ e, l.Sized slotSize e) ∧
    (∀ e, l.entryBase e % 256 = 0 ∧ 0x1000 ≤ l.entryBase e ∧ l.entryBase e + l.entryExtent e ≤ 0x20000000) ∧
    allSlots.Pairwise fun e o => ¬ l.Shares e o := by
  have symm : Std.Symm fun e o => ¬ l.Shares e o := ⟨fun _ _ no shares => no shares.symm⟩
  have apart : (allSlots.Pairwise fun e o => ¬ l.Shares e o) ↔ ∀ e o, e ≠ o → ¬ l.Shares e o := by
    refine ⟨fun pairs e o other => ?_, fun h => allSlots_nodup.imp fun other => h _ _ other⟩
    exact pairs.forall (mem_allSlots e) (mem_allSlots o) other
  rw [apart]
  exact ⟨fun h => ⟨fun e => (h e).sized, fun e => ⟨(h e).aligned, (h e).beyond, (h e).inside⟩, fun e o other =>
      (h e).apart o (Ne.symm other)⟩,
    fun ⟨sized, placed, apart⟩ e =>
      ⟨sized e, (placed e).1, (placed e).2.2, (placed e).2.1, fun o other => apart e o (Ne.symm other)⟩⟩

end Sys2Proof.Machine

open Sys2Proof Sys2Proof.Machine

/-- Settles O19: entry by entry, in the order of the checks. -/
theorem regionTableSound : Obligations.RegionTableSound := by
  unfold Obligations.RegionTableSound
  intro slotSize l
  obtain ⟨sized0, sized1, sized2, sized3⟩ := l.sized_iff slotSize
  have extent0 : l.entryExtent 0 = 4 * l.frameArea.size := Nat.mul_comm _ _
  have extent1 : l.entryExtent 1 = 32 * l.poseRing.size := Nat.mul_comm _ _
  have extent2 : l.entryExtent 2 = 4 * l.playback.size := Nat.mul_comm _ _
  have extent3 : l.entryExtent 3 = 208 * l.capture.size := Nat.mul_comm _ _
  have regions : [(l.frameArea.base, 4 * l.frameArea.size), (l.poseRing.base, 32 * l.poseRing.size),
      (l.playback.base, 4 * l.playback.size), (l.capture.base, 208 * l.capture.size)] =
      allSlots.map fun e => (l.entryBase e, l.entryExtent e) := by
    rw [← extent0, ← extent1, ← extent2, ← extent3]
    rfl
  refine ⟨?_, ?_⟩
  · rw [l.fault_none, l.sound_iff, regions, forall_entries, sized0, sized1, sized2, sized3, List.forall_mem_map, List.pairwise_map]
    simp only [mem_allSlots, forall_const, Layout.Shares, not_exists, and_assoc]
  · intro base extent allowed shares sized aligned inside beyond sound e before
    have based (d : Fin 4) : base[d] = l.entryBase d := by fin_cases d <;> rfl
    have extents (d : Fin 4) : extent[d] = l.entryExtent d := by
      fin_cases d
      · exact extent0.symm
      · exact extent1.symm
      · exact extent2.symm
      · exact extent3.symm
    have sizes (d : Fin 4) : sized d ↔ l.Sized slotSize d := by
      fin_cases d
      · exact sized0.symm
      · exact sized1.symm
      · exact sized2.symm
      · exact sized3.symm
    have shared (d o : Fin 4) : shares d o ↔ l.Shares d o := by
      simp only [shares, based, extents]
      exact Iff.rfl
    have first (d : Fin 4) (h : d < e) : l.EntryOk slotSize d := by
      obtain ⟨⟨⟨⟨size, align⟩, outside⟩, anchor⟩, apart⟩ := before d h
      rw [based] at align anchor
      rw [based, extents] at outside
      exact ⟨(sizes d).mp size, align, outside, anchor, fun o other => (shared d o).not.mp (apart o other)⟩
    refine ⟨fun bad => ?_, fun size bad => ?_, fun ⟨size, align⟩ bad => ?_, fun ⟨⟨size, align⟩, outside⟩ bad => ?_,
      fun ⟨⟨⟨size, align⟩, outside⟩, anchor⟩ bad => ?_⟩
    · exact l.fault_some slotSize e first (entryFault_size ((sizes e).not.mp bad))
    · have odd : ¬ base[e] % 256 = 0 := fun align => bad ⟨size, align⟩
      rw [based] at odd
      exact l.fault_some slotSize e first (entryFault_align ((sizes e).mp size) odd)
    · have out : ¬ base[e] + extent[e] ≤ 0x20000000 := fun outside => bad ⟨⟨size, align⟩, outside⟩
      rw [based] at align
      rw [based, extents] at out
      exact l.fault_some slotSize e first (entryFault_outside ((sizes e).mp size) align out)
    · have low : ¬ 0x1000 ≤ base[e] := fun anchor => bad ⟨⟨⟨size, align⟩, outside⟩, anchor⟩
      rw [based] at align low
      rw [based, extents] at outside
      exact l.fault_some slotSize e first (entryFault_anchor ((sizes e).mp size) align outside low)
    · have overlap : ∃ o, o ≠ e ∧ l.Shares e o := by
        by_contra apart
        exact bad ⟨⟨⟨⟨size, align⟩, outside⟩, anchor⟩, fun o other shares => apart ⟨o, other, (shared e o).mp shares⟩⟩
      rw [based] at align anchor
      rw [based, extents] at outside
      refine l.fault_some slotSize e first ?_
      rw [entryFault_beyond ((sizes e).mp size) align outside anchor, if_pos ((l.overlaps_iff e).mpr overlap)]

end

section
/-! SUPPORT. The commands of the HKU: the end of a taking, APPLY_LAYOUT and RESTART (R33 to R46). -/

namespace Sys2Proof.Machine

/-! ### The port and the sensor port -/

/-- An access of the kinds given, at the port, does no more (log entry 16). -/
theorem State.dropAccess_eq (s : State) (p : AccessKind → Bool) :
    s.dropAccess p = { s with port := s.port.map fun a => if p a.kind then { a with live := false } else a } := by
  obtain ⟨now, mem, port⟩ := s
  cases port with
  | none => rfl
  | some a => by_cases drops : p a.kind = true <;> simp [State.dropAccess, drops]

/-- Beginning an exchange changes the sensor port alone. -/
theorem Mu.nextExchange_eq (m : Mu) : m.nextExchange = { m with sensor := m.nextExchange.sensor } := by
  unfold Mu.nextExchange
  repeat' first | rfl | split

section
variable {m : Mu}

theorem Mu.nextExchange_busy (busy : m.sensor.busy ≠ none) : m.nextExchange = m := by
  obtain ⟨e, some_⟩ := Option.ne_none_iff_exists'.mp busy
  simp only [Mu.nextExchange, some_]

theorem Mu.nextExchange_stop (idle : m.sensor.busy = none) (waits : m.sensor.stopWaiting = true) :
    m.nextExchange = { m with sensor.busy := some .stop, sensor.stopWaiting := false } := by
  simp only [Mu.nextExchange, idle, waits, if_true]

theorem Mu.nextExchange_config (idle : m.sensor.busy = none) (stop : m.sensor.stopWaiting = false)
    (waits : m.sensor.configWaiting = true) :
    m.nextExchange = { m with sensor.busy := some (.config m.inUse), sensor.configWaiting := false } := by
  simp only [Mu.nextExchange, idle, stop, waits, if_true, Bool.false_eq_true, if_false]

theorem Mu.nextExchange_rate {r : Rate} (idle : m.sensor.busy = none) (stop : m.sensor.stopWaiting = false)
    (config : m.sensor.configWaiting = false) (waits : m.sensor.rateWaiting = some r) :
    m.nextExchange = { m with sensor.busy := some (.rate r), sensor.rateWaiting := none } := by
  simp only [Mu.nextExchange, idle, stop, config, waits, Bool.false_eq_true, if_false]

theorem Mu.nextExchange_read {at_ : Time} (idle : m.sensor.busy = none) (stop : m.sensor.stopWaiting = false)
    (config : m.sensor.configWaiting = false) (rate : m.sensor.rateWaiting = none) (waits : m.sensor.ready = some at_) :
    m.nextExchange = { m with sensor.busy := some (.read at_ true), sensor.ready := none } := by
  simp only [Mu.nextExchange, idle, stop, config, rate, waits, Bool.false_eq_true, if_false]

theorem Mu.beginStop_eq (m : Mu) : m.beginStop = { m with sensor := m.beginStop.sensor } := by
  rw [Mu.beginStop, Mu.nextExchange_eq]

/-- A stop is begun at once on an idle sensor port (R48). -/
theorem Mu.beginStop_idle (idle : m.sensor.busy = none) : m.beginStop.sensor =
    { m.sensor with rateWaiting := none, ready := none, busy := some .stop, stopWaiting := false } := by
  rw [Mu.beginStop, Mu.nextExchange_stop (by simp [idle]) rfl]

/-- Behind a read in progress, whose sample is no longer wanted, a stop waits (R48, R60). -/
theorem Mu.beginStop_read {at_ : Time} {wanted : Bool} (busy : m.sensor.busy = some (.read at_ wanted)) : m.beginStop.sensor =
    { m.sensor with rateWaiting := none, ready := none, stopWaiting := true, busy := some (.read at_ false) } := by
  rw [Mu.beginStop, Mu.nextExchange_busy (by simp [busy])]
  simp [busy]

/-- Behind another exchange in progress a stop waits (R48). -/
theorem Mu.beginStop_other {e : Exchange} (busy : m.sensor.busy = some e) (other : ∀ at_ wanted, e ≠ .read at_ wanted) :
    m.beginStop.sensor = { m.sensor with rateWaiting := none, ready := none, stopWaiting := true } := by
  rw [Mu.beginStop, Mu.nextExchange_busy (by simp [busy])]
  cases e with
  | read at_ wanted => exact absurd rfl (other at_ wanted)
  | config | rate | stop => simp [busy]

end

/-! ### APPLY_LAYOUT -/

theorem State.streamsSettling_false (s : State) : s.streamsSettling = false ↔
    (∀ a ∈ s.au.waiting, a.stopping = false) ∧ ∀ x a, s.port = some x → x.kind = .audio a → a.stopping = false := by
  unfold State.streamsSettling
  rw [Bool.or_eq_false_iff, List.any_eq_false]
  refine and_congr (forall₂_congr fun a _ => by simp) ?_
  split
  · rename_i a addr transfer live port
    refine ⟨fun quiet x b at_ kind => ?_, fun quiet => quiet _ a port rfl⟩
    rw [port] at at_
    cases at_
    cases kind
    exact quiet
  · rename_i other
    refine ⟨fun _ x a port kind => ?_, fun _ => rfl⟩
    obtain ⟨k, addr, transfer, live⟩ := x
    cases kind
    exact absurd port (other a addr transfer live)

theorem State.regionsIdle_iff (s : State) : s.regionsIdle = true ↔
    s.fcu.display = .off ∧ s.mu.motion = .off ∧ s.au.playback = .stopped ∧ s.au.capturing = false ∧ s.ce.jobs = [] ∧
      (∀ a ∈ s.au.waiting, a.stopping = false) ∧ ∀ x a, s.port = some x → x.kind = .audio a → a.stopping = false := by
  simp only [State.regionsIdle, Bool.and_eq_true, beq_iff_eq, Bool.not_eq_true', List.isEmpty_iff, s.streamsSettling_false]
  tauto

/-! ### RESTART -/

/-- The accesses whose owner RESTART stops, by client and kind (R42, R77, R101, log entry 48). -/
theorem AccessKind.droppedByRestart_iff (k : AccessKind) : k.droppedByRestart = true ↔
    k.client = .scanOut ∨ k.client = .motion ∨ k.client = .copy ∨ k = .noticeEntry ∨ (∃ written, k = .noticeProducer written) ∨
      ∃ index mode late stopping, k = .audio ⟨.cueEntry index mode, late, stopping⟩ := by
  cases k with
  | audio a =>
    obtain ⟨work, late, stopping⟩ := a
    cases work <;> simp [AccessKind.droppedByRestart, AccessKind.client]
  | _ => simp [AccessKind.droppedByRestart, AccessKind.client]

theorem State.restart_port (s : State) (r : Record) : (s.restart r).port =
    s.port.map fun a => if a.kind.droppedByRestart then { a with live := false } else a := by
  rw [State.restart, State.dropAccess_eq]
  rfl

/-- RESTARTED is the first notice after a RESTART (R45, R46). -/
theorem Hku.restarted_post (h : Hku) (now : Time) (display : DisplayState) (n : Notice) :
    (h.restarted now display).post now n =
      { h.restarted now display with noticeProducer := 1, writeList := [⟨0, now, n⟩] } := by
  simp [Hku.post, Hku.restarted, Config.noticeLimit]

/-- RESTART clears what the MU holds but for its sensor port (R43, R47, R78). -/
theorem Mu.restarted_eq (m : Mu) (c : Settings) : m.restarted c =
    { m with motion := .off, stall := none, bias := c.bias, pub := m.pub.restarted, sensor := (m.restarted c).sensor } := by
  unfold Mu.restarted
  dsimp only
  split
  · rfl
  · exact Mu.beginStop_eq _

theorem Mu.restarted_sensor_off {m : Mu} (c : Settings) (off : m.motion = .off) : (m.restarted c).sensor = m.sensor := by
  simp only [Mu.restarted, if_pos off]

/-- RESTART of a motion that is not OFF stops the sensor (R43, R48). -/
theorem Mu.restarted_sensor {m : Mu} (c : Settings) (on : m.motion ≠ .off) : (m.restarted c).sensor = m.beginStop.sensor := by
  simp only [Mu.restarted, if_neg on]
  obtain busy | ⟨e, busy⟩ := Option.eq_none_or_eq_some m.sensor.busy
  · exact (Mu.beginStop_idle (by exact busy)).trans (Mu.beginStop_idle busy).symm
  · by_cases read : ∃ at_ wanted, e = .read at_ wanted
    · obtain ⟨at_, wanted, rfl⟩ := read
      exact (Mu.beginStop_read (by exact busy)).trans (Mu.beginStop_read busy).symm
    · push Not at read
      exact (Mu.beginStop_other (by exact busy) read).trans (Mu.beginStop_other busy read).symm

end Sys2Proof.Machine

open Sys2Proof Sys2Proof.Machine

/-- Settles O16: by the definitions of the end of a taking and of a refusal. -/
theorem takingEnds : Obligations.TakingEnds := by
  unfold Obligations.TakingEnds
  refine fun t s => ⟨rfl, ⟨State.compareProducer_near, State.compareProducer_far, State.compareProducer_behind⟩, fun r reason => rfl,
    fun r before taking unknown => ?_⟩
  dsimp only [exec, execUnknownCommand]
  refine State.takeRecord_eq before taking ?_ rfl
  rw [Bool.not_eq_true', ← Bool.not_eq_true, List.contains_iff_mem]
  exact fun known => unknown (List.mem_map_of_mem (f := BitVec.toNat) known)

/-- Settles O17: by whether every unit that uses a region is idle. -/
theorem applyLayoutChecked : Obligations.ApplyLayoutChecked := by
  unfold Obligations.ApplyLayoutChecked
  intro t s r before taking code
  dsimp only [exec, execApplyLayout]
  refine ⟨fun idle => ?_, fun busy => ?_⟩
  · exact State.takeRecord_eq before taking (by simp [code]) (if_pos ((State.regionsIdle_iff _).mpr idle))
  · exact State.takeRecord_eq before taking (by simp [code]) (if_neg fun idle => busy ((State.regionsIdle_iff _).mp idle))

/-- Settles O18: by the first fault of the table read, and by the part halves that are left. -/
theorem layoutApplied : Obligations.LayoutApplied := by
  unfold Obligations.LayoutApplied
  intro t s a port inside
  refine ⟨fun r reading kind => ⟨fun entry fault faulty => ?_, fun sound => ?_⟩, fun k left kind halves => ⟨fun last => ?_, fun more => ?_⟩,
    fun k kind other => ?_⟩
  · have refused : (s.served t a).checkTable r (layoutOf (a.fetch s.mem)) =
        ((s.served t a).post (.cmdRefused .badLayout (some (entry, fault)) s.hku.consumer r.code r.tag)).finishTaking := by
      simp only [State.checkTable, State.served_hku, faulty]
    dsimp only [exec, execLayoutTableRead]
    exact State.portDone_eq port inside () (by rw [kind]) (by simp only [State.served_hku, reading, refused])
  · have applied : (s.served t a).checkTable r (layoutOf (a.fetch s.mem)) = (s.served t a).applyLayout (layoutOf (a.fetch s.mem)) := by
      simp only [State.checkTable, State.served_hku, sound]
    dsimp only [exec, execLayoutTableRead]
    exact State.portDone_eq port inside () (by rw [kind]) (by simp only [State.served_hku, reading, applied]; rfl)
  · dsimp only [exec, execPartHalfWriteDone]
    exact State.portDone_eq port inside k (by rw [kind]) (by simp only [State.served_hku, halves, if_pos last])
  · dsimp only [exec, execPartHalfWriteDone]
    exact State.portDone_eq port inside k (by rw [kind]) (by simp only [State.served_hku, halves, if_neg more])
  · dsimp only [exec, execPartHalfWriteDone]
    refine State.portDone_eq port inside k (by rw [kind]) ?_
    rw [State.served_hku]
    split
    · rename_i left halves; exact absurd halves (other left)
    all_goals rfl

/-- Settles O20: block by block. -/
theorem restartTaken : Obligations.RestartTaken := by
  unfold Obligations.RestartTaken
  intro t s r before taking code
  have port := State.restart_port { s with now := t } r
  refine ⟨{ s with now := t }.restart r, ?_, by simp, by simp, by simp, by simp, by simp, fun none_ => ?_, fun a at_ => ⟨fun ends => ?_, fun stays => ?_⟩,
    by simp [Fcu.restarted], fun k => ?_, by simp [Ssu.restarted, ShiftResults.initial], ?_, fun off => ?_, fun on => ⟨fun busy => ?_, fun at_ wanted busy => ?_, fun e busy other => ?_⟩,
    by simp [Au.restarted], by simp [Pu.restarted], by simp [Progress.none], ?_⟩
  · dsimp only [exec, execRestart]
    exact State.takeRecord_eq before taking (by simp [code]) rfl
  · rw [port, none_]; rfl
  · rw [port, at_, Option.map_some, if_pos (a.kind.droppedByRestart_iff.mpr ends)]
  · rw [port, at_, Option.map_some, if_neg (fun drops => stays (a.kind.droppedByRestart_iff.mp drops))]
  · rw [State.restart_fcu, Fcu.restarted_slots]; rfl
  · rw [State.restart_mu]; exact Mu.restarted_eq s.mu s.hku.settings
  · rw [State.restart_mu]; exact Mu.restarted_sensor_off _ off
  · rw [State.restart_mu, Mu.restarted_sensor _ on, Mu.beginStop_idle busy]
  · rw [State.restart_mu, Mu.restarted_sensor _ on, Mu.beginStop_read busy]
  · rw [State.restart_mu, Mu.restarted_sensor _ on, Mu.beginStop_other busy other]
  · rw [State.restart_hku, Hku.restarted_post]; rfl

/-- Settles O21: by the step of the restart whose access completes. -/
theorem restartWrites : Obligations.RestartWrites := by
  unfold Obligations.RestartWrites
  refine ⟨fun t s a port inside kind => ⟨fun k rest work => ?_, fun step next rest other work => ?_, fun step other work => ?_⟩,
    fun s l k layout => ?_, fun s => ⟨?_, fun q => ?_⟩⟩
  · dsimp only [exec, execRestartWriteDone]
    exact State.portDone_eq port inside () (by rw [kind]) (by simp only [State.served_hku, work])
  · dsimp only [exec, execRestartWriteDone]
    refine State.portDone_eq port inside () (by rw [kind]) ?_
    rw [State.served_hku, work]
    cases step with
    | slotRead k => exact absurd rfl (other k)
    | slotWrite | words | notices => rfl
  · dsimp only [exec, execRestartWriteDone]
    refine State.portDone_eq port inside () (by rw [kind]) ?_
    rw [State.served_hku, work]
    cases step with
    | slotRead k => exact absurd rfl (other k)
    | slotWrite | words | notices => rfl
  · have header : s.slotHeader k = l.frameArea.base + k.val * l.frameArea.size := by
      simp only [State.slotHeader, layout]; rfl
    refine ⟨by simp only [State.restartAccess, header], fun rest => ?_⟩
    simp [State.restartAccess, header, writeAccess, leBytes, SlotState.code]
  · simp only [State.restartAccess, writeAccess, List.map_replicate]
  · simp only [State.restartAccess, writeAccess, List.map_replicate]

end

section
/-! SUPPORT. The display and motion commands: the checks of their operands and the sensor exchanges they begin (R47, R48, R58 to R60,
R89, R91, R114). -/

namespace Sys2Proof.Machine

theorem displayParamsOk_iff (r : Record) : displayParamsOk r = true ↔
    1 ≤ fieldAt r.bytes 4 4 ∧ fieldAt r.bytes 4 4 ≤ 15 ∧ 100 ≤ fieldAt r.bytes 8 4 ∧ fieldAt r.bytes 8 4 ≤ 20000 := by
  show displayParamsOk r = true ↔ 1 ≤ r.param 4 ∧ r.param 4 ≤ 15 ∧ 100 ≤ r.param 8 ∧ r.param 8 ≤ 20000
  simp [displayParamsOk, and_assoc]

theorem rateOf_hz (rate : Rate) : rateOf rate.hz = some rate := by cases rate <;> rfl

/-! ### Exchanges begun (R48) -/

theorem Mu.beginConfig_eq (m : Mu) : m.beginConfig = { m with sensor := m.beginConfig.sensor } := by
  rw [Mu.beginConfig, Mu.nextExchange_eq]

/-- A configuration is begun at once on an idle sensor port (R48). -/
theorem Mu.beginConfig_idle {m : Mu} (idle : m.sensor.busy = none) (stop : m.sensor.stopWaiting = false) :
    m.beginConfig.sensor = { m.sensor with busy := some (.config m.inUse), configWaiting := false } := by
  rw [Mu.beginConfig, Mu.nextExchange_config (by exact idle) (by exact stop) rfl]

/-- Behind an exchange in progress a configuration waits (R48). -/
theorem Mu.beginConfig_busy {m : Mu} (busy : m.sensor.busy ≠ none) :
    m.beginConfig.sensor = { m.sensor with configWaiting := true } := by
  rw [Mu.beginConfig, Mu.nextExchange_busy (by exact busy)]

end Sys2Proof.Machine

open Sys2Proof Sys2Proof.Machine

/-- Settles O22: by the first check that refuses, in their order. -/
theorem displayStarts : Obligations.DisplayStarts := by
  unfold Obligations.DisplayStarts
  intro t s r before taking code
  dsimp only [exec, execDisplayStart]
  have checks := displayParamsOk_iff r
  refine ⟨fun bad => ?_, fun ok missing => ?_, fun ok present on => ?_, fun ok present off => ?_⟩ <;>
    refine State.takeRecord_eq before taking (by simp [code]) ?_
  · simp [bad, checks]
  · simp [checks.mpr ok, missing]
  · simp [checks.mpr ok, present, on]
  · simp only [checks.mpr ok, present, off, Option.isNone_iff_eq_none, Bool.not_true, Bool.false_eq_true, if_false, ne_eq,
      not_true_eq_false]
    rfl

/-- Settles O23: DISPLAY_STOP by the state of the display, SET_EYE_TRIM by the ranges of its trims. -/
theorem displayStops : Obligations.DisplayStops := by
  unfold Obligations.DisplayStops
  intro t s r before taking
  dsimp only [exec, execDisplayStop, execSetEyeTrim]
  refine ⟨fun code off => ?_, fun code powering => ?_, fun code runs => ?_, fun code => ?_⟩
  · exact State.takeRecord_eq before taking (by simp [code]) (by simp only [off])
  · exact State.takeRecord_eq before taking (by simp [code]) (by simp only [powering])
  · refine State.takeRecord_eq before taking (by simp [code]) ?_
    rcases runs with blank | showing
    · simp only [blank]
    · simp only [showing]
  · have checks : (trimOk (r.signed 4) && trimOk (r.signed 8)) = true ↔
        -64 ≤ signedAt r.bytes 4 4 ∧ signedAt r.bytes 4 4 ≤ 63 ∧ -64 ≤ signedAt r.bytes 8 4 ∧ signedAt r.bytes 8 4 ≤ 63 := by
      rw [Bool.and_eq_true, trimOk_iff, trimOk_iff, and_assoc]; rfl
    refine ⟨fun ok => ?_, fun bad => ?_⟩ <;> refine State.takeRecord_eq before taking (by simp [code]) ?_
    · exact if_pos (checks.mpr ok)
    · exact if_neg fun ok => bad (checks.mp ok)

/-- Settles O24: by the first check that refuses, in their order, and by what the sensor port does. -/
theorem motionStarts : Obligations.MotionStarts := by
  unfold Obligations.MotionStarts
  intro t s r before taking code
  dsimp only [exec, execMotionStart]
  have range : (decide (1 ≤ r.param 4) && decide (r.param 4 ≤ 8)) = true ↔ 1 ≤ fieldAt r.bytes 4 4 ∧ fieldAt r.bytes 4 4 ≤ 8 := by
    show _ ↔ 1 ≤ r.param 4 ∧ r.param 4 ≤ 8
    simp
  have known : (1 ≤ fieldAt r.bytes 4 4 ∧ fieldAt r.bytes 4 4 ≤ 8 ∧ rateWritten (fieldAt r.bytes 8 4)) →
      (decide (1 ≤ r.param 4) && decide (r.param 4 ≤ 8)) = true ∧ ∃ rate, rateOf (r.param 8) = some rate := by
    rintro ⟨low, high, written⟩
    obtain ⟨rate, rated, _⟩ := rateOf_written written
    exact ⟨range.mpr ⟨low, high⟩, rate, rated⟩
  refine ⟨fun bad => ?_, fun ok missing => ?_, fun ok present on => ?_, fun rate ok hz present off => ?_⟩
  · refine State.takeRecord_eq before taking (by simp [code]) ?_
    split
    · rename_i rate inside rated
      refine absurd ?_ bad
      obtain ⟨low, high⟩ := range.mp inside
      refine ⟨low, high, ?_⟩
      by_contra other
      rw [Record.param, rateOf_other other] at rated
      cases rated
    · rfl
  · obtain ⟨inside, rate, rated⟩ := known ok
    refine State.takeRecord_eq before taking (by simp [code]) ?_
    simp [inside, rated, missing]
  · obtain ⟨inside, rate, rated⟩ := known ok
    refine State.takeRecord_eq before taking (by simp [code]) ?_
    simp [inside, rated, present, on]
  · have rated : rateOf (r.param 8) = some rate := by rw [Record.param, ← hz, rateOf_hz]
    have inside := range.mpr ⟨ok.1, ok.2.1⟩
    refine ⟨(s.mu.started t (r.param 4) rate s.caps.rate).sensor, ?_, fun idle stop => ?_, fun busy => ?_⟩
    · refine State.takeRecord_eq before taking (by simp [code]) ?_
      simp only [inside, rated, present, off, Option.isNone_iff_eq_none, if_false, ne_eq, not_true_eq_false]
      exact congrArg (fun m => ({ s with now := t, mu := m } : State).finishTaking) (Mu.beginConfig_eq _)
    · exact Mu.beginConfig_idle idle stop
    · exact Mu.beginConfig_busy busy

/-- Settles O25: MOTION_STOP by the motion state and the exchange in progress. -/
theorem motionStops : Obligations.MotionStops := by
  unfold Obligations.MotionStops
  intro t s r before taking
  dsimp only [exec, execMotionStop, execSetGyroBias]
  refine ⟨fun code off => ?_, fun code on => ?_, fun code => State.takeRecord_eq before taking (by simp [code]) rfl⟩
  · exact State.takeRecord_eq before taking (by simp [code]) (if_pos off)
  · refine ⟨s.mu.stopped.sensor, s.port.map fun a => if a.kind.client = .motion then { a with live := false } else a, State.takeRecord_eq before taking (by simp [code]) ?_, rfl, fun idle => ?_,
      fun at_ wanted busy => ?_, fun e busy other => ?_⟩
    · rw [if_neg (by exact on), State.dropAccess_eq]
      simp only [beq_iff_eq]
      exact congrArg (fun m => ({ s with now := t, mu := m, port := _ } : State).finishTaking)
        (Mu.beginStop_eq { s.mu with motion := .off, stall := none, gathered := ⟨false, false, false⟩, pub := s.mu.pub.stopped })
    · exact Mu.beginStop_idle (by exact idle)
    · exact Mu.beginStop_read (by exact busy)
    · exact Mu.beginStop_other (by exact busy) other

end

section
/-! SUPPORT. A sample of the motion sensor: the accumulation, the published record and the review of the rate (R50 to R57, R65, R66,
R179). -/

namespace Sys2Proof.Machine

theorem Rate.period_eq (r : Rate) : r.period = 1000000 / r.hz := by cases r <;> rfl

/-! ### One axis (R51, R52, R54) -/

theorem AxisSource.corrected_eq (a : AxisSource) (gyro : Xyz Half) (bias : Half) : a.corrected gyro bias =
    max (-32768) (min 32767 ((if a.negative then -(a.source.of gyro).toInt else (a.source.of gyro).toInt) - bias.toInt)) := rfl

/-- A corrected rate fits 16 bits (R52). -/
theorem AxisSource.toInt_corrected (a : AxisSource) (gyro : Xyz Half) (bias : Half) :
    (BitVec.ofInt 16 (a.corrected gyro bias)).toInt = a.corrected gyro bias := by
  have low : -32768 ≤ a.corrected gyro bias := le_max_left _ _
  have high : a.corrected gyro bias ≤ 32767 := max_le (by decide) (min_le_left _ _)
  rw [BitVec.toInt_ofInt]
  exact Int.bmod_eq_of_le (by omega) (by omega)

theorem remainderAfter_cast (r : Int) (dt remainder : Nat) :
    (remainderAfter r dt remainder : Int) = (r * 4096 * dt + remainder) % 1000000 :=
  Int.toNat_of_nonneg (Int.emod_nonneg _ (by decide))

/-- The interval a sample is accumulated over (R53). -/
theorem Mu.interval_fst (m : Mu) (time : Time) : ((m.interval time).1 : Int) =
    if m.first then 1000000 / (m.inUse.hz : Int) else max 1 (min 10000 (time - m.lastTime).toInt) := by
  unfold Mu.interval
  dsimp only
  split
  · rw [Rate.period_eq]; rfl
  · exact Int.toNat_of_nonneg (le_trans (by decide) (le_max_left _ _))

/-- The GAP flag of a sample (R53). -/
theorem Mu.interval_snd (m : Mu) (time : Time) : (m.interval time).2 = (!m.first && decide
    (2 * ((if m.rateChanged then max (1000000 / m.inUse.hz) (1000000 / m.former.hz) else 1000000 / m.inUse.hz : Nat) : Int) <
      (time - m.lastTime).toInt)) := by
  unfold Mu.interval
  simp only [Rate.period_eq]
  cases m.first <;> rfl

theorem withFlag_toNat (v : Half) (flag : Bool) : (withFlag v flag).toNat = v.toNat / 2 * 2 + (if flag then 1 else 0) := by
  have bound := v.isLt
  unfold withFlag
  rw [BitVec.toNat_ofNat]
  cases flag <;> simp only [if_true, Bool.false_eq_true, if_false] <;> omega

/-! ### The publication list (R66) -/

/-- A full list loses its oldest record, or the one behind it while the oldest is being written (R66). -/
theorem Publication.append_eq (p : Publication) (r : PoseRecord) : p.append r = { p with
    list := (if p.list.length < 8 then p.list else if p.headGranted then p.list.take 1 ++ p.list.drop 2 else p.list.drop 1) ++ [r] } := by
  unfold Publication.append
  cases p.headGranted
  · simp [Config.publicationLimit]
  · simp [Config.publicationLimit, List.eraseIdx_eq_take_drop_succ]

/-! ### The rate in use and the exchanges (R48, R50) -/

section
variable (m : Mu)

/-- Beginning an exchange twice begins one. -/
theorem Mu.nextExchange_nextExchange : m.nextExchange.nextExchange = m.nextExchange := by
  cases busy : m.sensor.busy with
  | some e =>
    have still : m.nextExchange = m := Mu.nextExchange_busy (by simp [busy])
    rw [still, still]
  | none =>
    by_cases stop : m.sensor.stopWaiting = true
    · rw [Mu.nextExchange_stop busy stop, Mu.nextExchange_busy (by simp)]
    · rw [Bool.not_eq_true] at stop
      by_cases config : m.sensor.configWaiting = true
      · rw [Mu.nextExchange_config busy stop config, Mu.nextExchange_busy (by simp)]
      · rw [Bool.not_eq_true] at config
        cases rate : m.sensor.rateWaiting with
        | some r => rw [Mu.nextExchange_rate busy stop config rate, Mu.nextExchange_busy (by simp)]
        | none =>
          cases ready : m.sensor.ready with
          | some at_ => rw [Mu.nextExchange_read busy stop config rate ready, Mu.nextExchange_busy (by simp)]
          | none =>
            have still : m.nextExchange = m := by simp [Mu.nextExchange, busy, stop, config, rate, ready]
            rw [still, still]

variable {m}

/-- What exchange begins depends on the sensor port and on the rate in use. -/
theorem Mu.nextExchange_sensor_congr {n : Mu} (sensor : n.sensor = m.sensor) (inUse : n.inUse = m.inUse) :
    n.nextExchange.sensor = m.nextExchange.sensor := by
  unfold Mu.nextExchange
  rw [sensor, inUse]
  repeat' first | rfl | split | assumption

variable {cap : Rate}

theorem Mu.reviewRate_same (same : m.commanded.lower cap = m.inUse) : m.reviewRate cap = { m with rateChanged := false } := by
  simp only [Mu.reviewRate, same, ne_eq, not_true_eq_false, if_false]

theorem Mu.reviewRate_new (new : m.commanded.lower cap ≠ m.inUse) : m.reviewRate cap =
    { m with
      former := m.inUse, inUse := m.commanded.lower cap, rateChanged := true
      sensor.rateWaiting := some (m.commanded.lower cap) }.nextExchange := by
  simp only [Mu.reviewRate, if_pos new]
  rfl

@[simp] theorem Mu.reviewRate_keeps :
    (m.reviewRate cap).angles = m.angles ∧ (m.reviewRate cap).remainders = m.remainders ∧ (m.reviewRate cap).rates = m.rates ∧
    (m.reviewRate cap).accel = m.accel ∧ (m.reviewRate cap).lastTime = m.lastTime ∧ (m.reviewRate cap).bias = m.bias ∧
    (m.reviewRate cap).commanded = m.commanded ∧ (m.reviewRate cap).decimation = m.decimation ∧
    (m.reviewRate cap).samples = m.samples ∧ (m.reviewRate cap).first = m.first ∧ (m.reviewRate cap).gathered = m.gathered ∧
    (m.reviewRate cap).stall = m.stall := by
  by_cases same : m.commanded.lower cap = m.inUse
  · simp [Mu.reviewRate_same same]
  · simp [Mu.reviewRate_new same]

/-! ### Publishing at a multiple of the decimation (R65) -/

theorem Mu.publish_eq : m.publish = { m with gathered := m.publish.gathered, pub := m.publish.pub } := by
  unfold Mu.publish
  split <;> rfl

@[simp] theorem Mu.publish_keeps :
    m.publish.angles = m.angles ∧ m.publish.remainders = m.remainders ∧ m.publish.rates = m.rates ∧ m.publish.accel = m.accel ∧
    m.publish.lastTime = m.lastTime ∧ m.publish.bias = m.bias ∧ m.publish.commanded = m.commanded ∧ m.publish.inUse = m.inUse ∧
    m.publish.former = m.former ∧ m.publish.decimation = m.decimation ∧ m.publish.samples = m.samples ∧
    m.publish.first = m.first ∧ m.publish.stall = m.stall := by
  rw [Mu.publish_eq]
  simp only [and_self]

theorem Mu.publish_other (other : m.samples % m.decimation ≠ 0) : m.publish = m := if_neg other

theorem Mu.publish_gathered (multiple : m.samples % m.decimation = 0) : m.publish.gathered = ⟨false, false, false⟩ := by
  simp only [Mu.publish, if_pos multiple]

theorem Mu.publish_pub_none (multiple : m.samples % m.decimation = 0) (last : m.pub.nextSeq = none) : m.publish.pub = m.pub := by
  simp only [Mu.publish, if_pos multiple, last]

theorem Mu.publish_pub_some {q : Word} (multiple : m.samples % m.decimation = 0) (next : m.pub.nextSeq = some q) :
    m.publish.pub = { m.pub.append (m.poseRecord q) with nextSeq := nextSequence q } := by
  simp only [Mu.publish, if_pos multiple, next]

end

/-- A wanted sample changes the MU, and posts SENSOR_RESUMED in STALLED (R55, R57). -/
theorem State.takeReading_eq (s : State) (reading : SensorReading) (time : Time) : s.takeReading reading time = { s with
    hku := if s.mu.motion = .stalled then s.hku.post s.now (.sensorResumed time) else s.hku
    mu := ((s.mu.integrate s.hku.settings.axisMap reading time).publish).reviewRate s.caps.rate } := by
  unfold State.takeReading
  by_cases stalled : s.mu.motion = .stalled
  · simp only [if_pos stalled]; rfl
  · simp only [if_neg stalled]

end Sys2Proof.Machine

open Sys2Proof Sys2Proof.Machine

/-- Settles O26: through the accumulation, the publication and the review of the rate, in their order. -/
theorem sampleIntegrated : Obligations.SampleIntegrated := by
  unfold Obligations.SampleIntegrated
  intro t s reading time still m pick rate yaw pitch roll d dt cap rateNow period gap limit saturated afterStall flagged
  have picked (source : Source) : pick source = (source.of reading.gyro).toInt := by cases source <;> rfl
  have rated (a : AxisSource) (bias : Half) : rate a bias = a.corrected reading.gyro bias := by
    simp only [rate, picked, AxisSource.corrected_eq]
  have limited (a : AxisSource) (bias : Half) : limit a bias = a.saturates reading.gyro bias := by
    simp only [limit, rated, picked, AxisSource.saturates, AxisSource.unclamped, AxisSource.mapped]
    rw [Bool.or_comm, Bool.or_assoc]
  have interval : ((m.interval time).1 : Int) = dt := m.interval_fst time
  refine ⟨fun unwanted => ?_, fun wanted => ?_⟩
  · dsimp only [exec, execSensorReadDone]
    rw [still]
    simp only [m] at unwanted
    simp only [unwanted]
    exact State.fire_eq rfl rfl
  · let i := { m with sensor.busy := none }.integrate s.hku.settings.axisMap reading time
    let noted := if m.motion = .stalled then s.hku.post t (.sensorResumed time) else s.hku
    let u : State := { s with now := t, hku := noted, mu := (i.publish.reviewRate cap).nextExchange }
    have sensor : i.publish.sensor = { m.sensor with busy := none } := by simp [i]
    refine ⟨u, ?_, rfl, fun stalled => if_pos stalled, fun other => if_neg other, ?_⟩
    · dsimp only [exec, execSensorReadDone]
      rw [still]
      simp only [m] at wanted
      simp only [wanted]
      refine State.fire_eq rfl ?_
      rw [if_pos trivial, State.takeReading_eq]
      rfl
    have angle (a : Word) (r : AxisSource) (bias : Half) (remainder : Nat) :
        a + BitVec.ofInt 32 (increment (r.corrected reading.gyro bias) (m.interval time).1 remainder) =
          a + BitVec.ofInt 32 ((rate r bias * 4096 * dt + remainder) / 1000000) := by
      rw [increment, accumulation, interval, rated]
    have rest (r : AxisSource) (bias : Half) (remainder : Nat) :
        (remainderAfter (r.corrected reading.gyro bias) (m.interval time).1 remainder : Int) =
          (rate r bias * 4096 * dt + remainder) % 1000000 := by
      rw [remainderAfter_cast, interval, rated]
    have turn (r : AxisSource) (bias : Half) : (BitVec.ofInt 16 (r.corrected reading.gyro bias)).toInt = rate r bias := by
      rw [AxisSource.toInt_corrected, rated]
    have gathered : i.gathered = ⟨gap, saturated, afterStall⟩ := by
      have late : (m.interval time).2 = (!m.first && decide (2 * (period : Int) < d)) := m.interval_snd time
      have limits : saturated = (m.gathered.saturated || m.saturated s.hku.settings.axisMap reading.gyro) := by
        simp only [saturated, limited, Mu.saturated, Bool.or_assoc]
      rw [limits]
      simp only [gap, ← late]
      rfl
    have angles : u.mu.angles = i.angles := by simp [u]
    have remainders : u.mu.remainders = i.remainders := by simp [u]
    have rates : u.mu.rates = i.rates := by simp [u]
    have pub : u.mu.pub = i.publish.pub := by simp [u]
    have cleared : u.mu.gathered = i.publish.gathered := by simp [u]
    have accel (v : Half) (flag : Bool) : (withFlag v flag).toNat = flagged v flag := withFlag_toNat v flag
    have lower : i.publish.commanded.lower cap = rateNow := by rw [show i.publish.commanded = m.commanded by simp [i, Mu.integrate]]; rfl
    have inUse : i.publish.inUse = m.inUse := by simp [i, Mu.integrate]
    have former : i.publish.former = m.former := by simp [i, Mu.integrate]
    refine ⟨by simp [u, i], ?_, ?_, ?_, ?_, ?_, ?_, ?_, ?_, ?_, by simp [u, i, Mu.integrate], by simp [u, i, Mu.integrate],
      by simp [u, i, Mu.integrate], by simp [u, i, Mu.integrate], by simp [u, i, Mu.integrate], by simp [u, i, Mu.integrate],
      by simp [u, i, Mu.integrate], by simp [u, i, Mu.integrate], fun same => ?_, fun new => ?_, fun other => ?_,
      fun multiple last => ?_, fun q multiple next => ⟨i.poseRecord q, ?_⟩, fun other => ?_, fun multiple => ?_⟩
    · exact (congrArg Axes.yaw angles).trans (angle m.angles.yaw s.hku.settings.axisMap.yaw m.bias.yaw m.remainders.yaw)
    · exact (congrArg Axes.pitch angles).trans (angle m.angles.pitch s.hku.settings.axisMap.pitch m.bias.pitch m.remainders.pitch)
    · exact (congrArg Axes.roll angles).trans (angle m.angles.roll s.hku.settings.axisMap.roll m.bias.roll m.remainders.roll)
    · exact (congrArg (·.yaw) remainders) ▸ rest s.hku.settings.axisMap.yaw m.bias.yaw m.remainders.yaw
    · exact (congrArg (·.pitch) remainders) ▸ rest s.hku.settings.axisMap.pitch m.bias.pitch m.remainders.pitch
    · exact (congrArg (·.roll) remainders) ▸ rest s.hku.settings.axisMap.roll m.bias.roll m.remainders.roll
    · exact (congrArg (·.yaw.toInt) rates).trans (turn s.hku.settings.axisMap.yaw m.bias.yaw)
    · exact (congrArg (·.pitch.toInt) rates).trans (turn s.hku.settings.axisMap.pitch m.bias.pitch)
    · exact (congrArg (·.roll.toInt) rates).trans (turn s.hku.settings.axisMap.roll m.bias.roll)
    · have reviewed := Mu.reviewRate_same (m := i.publish) (lower.trans (same.trans inUse.symm))
      simp only [u, reviewed, Mu.nextExchange_frame, inUse, former, true_and]
      exact Mu.nextExchange_sensor_congr sensor rfl
    · have reviewed := Mu.reviewRate_new (m := i.publish) (cap := cap) (lower.symm ▸ inUse.symm ▸ new)
      simp only [u, reviewed, Mu.nextExchange_frame, Mu.nextExchange_nextExchange, lower, inUse, true_and]
      exact Mu.nextExchange_sensor_congr (by simp only [sensor]) rfl
    · rw [pub, Mu.publish_other (by exact other)]; rfl
    · exact pub.trans (Mu.publish_pub_none (by exact multiple) (by exact last))
    · refine ⟨?_, rfl, rfl, angles.symm, rates.symm, ?_, ?_, ?_⟩
      · rw [pub, Mu.publish_pub_some (by exact multiple) (by exact next), Publication.append_eq]; rfl
      · exact (accel reading.accel.x i.gathered.gap).trans (congrArg (fun f => flagged reading.accel.x f.gap) gathered)
      · exact (accel reading.accel.y i.gathered.saturated).trans (congrArg (fun f => flagged reading.accel.y f.saturated) gathered)
      · exact (accel reading.accel.z i.gathered.afterStall).trans (congrArg (fun f => flagged reading.accel.z f.afterStall) gathered)
    · rw [cleared, Mu.publish_other (by exact other)]; exact gathered
    · rw [cleared, Mu.publish_gathered (by exact multiple)]

/-- Settles O27: by the sensor port's next exchange and by the motion state. -/
theorem sensorPortWorks : Obligations.SensorPortWorks := by
  unfold Obligations.SensorPortWorks
  intro t s still
  dsimp only [exec, execDataReady, execSensorExchangeDone, execStallTimerExpiry]
  rw [still]
  refine ⟨fun m => ⟨Mu.nextExchange_busy, Mu.nextExchange_stop, Mu.nextExchange_config, fun r => Mu.nextExchange_rate,
    fun at_ => Mu.nextExchange_read⟩, fun off => ?_, fun on => State.fire_eq (decide_eq_true on) rfl, fun rate busy => ?_,
    fun busy => ?_, fun start runs started due => ?_⟩
  · rw [off]
    rfl
  · have sets : s.mu.sensor.busy.bind Exchange.sets = some (.measuring rate) := by
      rcases busy with config | change
      · rw [config]; rfl
      · rw [change]; rfl
    rw [sets]
    exact State.fire_eq rfl rfl
  · have sets : s.mu.sensor.busy.bind Exchange.sets = some .idle := by rw [busy]; rfl
    rw [sets]
    exact State.fire_eq rfl rfl
  · rw [started]
    exact State.fire_eq (by simp [runs, due, Config.stallTime]) rfl

end

section
/-! SUPPORT. The motion client: what it is granted and what follows each of its writes (R65 to R77, R179). -/

namespace Sys2Proof.Machine

/-! ### The bytes of a pose record (R65, section 11.7) -/

theorem wordAt_number {w : Word} {b : List Byte} {off : Nat} (field : fieldAt b off 4 = w.toNat % 256 ^ 4) : wordAt b off = w := by
  rw [wordAt, field, show 256 ^ 4 = 2 ^ 32 from rfl, Nat.mod_eq_of_lt w.isLt, BitVec.ofNat_toNat, BitVec.setWidth_eq]

theorem halfAt_number {h : Half} {b : List Byte} {off : Nat} (field : fieldAt b off 2 = h.toNat % 256 ^ 2) : halfAt b off = h := by
  rw [halfAt, field, show 256 ^ 2 = 2 ^ 16 from rfl, Nat.mod_eq_of_lt h.isLt, BitVec.ofNat_toNat, BitVec.setWidth_eq]

theorem PoseRecord.bytes_length (r : PoseRecord) : r.bytes.length = 32 := by
  unfold PoseRecord.bytes
  simp only [List.length_append, leBytes_length]

theorem PoseRecord.bytes_words (r : PoseRecord) : wordAt r.bytes 0 = r.sequence ∧ wordAt r.bytes 4 = r.time ∧
    wordAt r.bytes 8 = r.angles.yaw ∧ wordAt r.bytes 12 = r.angles.pitch ∧ wordAt r.bytes 16 = r.angles.roll := by
  unfold PoseRecord.bytes
  simp only [List.append_assoc]
  refine ⟨?_, ?_, ?_, ?_, ?_⟩ <;> refine wordAt_number ?_ <;> simp [fieldAt_number, fieldAt_behind]

theorem PoseRecord.bytes_halves (r : PoseRecord) : halfAt r.bytes 20 = r.rates.yaw ∧ halfAt r.bytes 22 = r.rates.pitch ∧
    halfAt r.bytes 24 = r.rates.roll ∧ halfAt r.bytes 26 = r.accel.x ∧ halfAt r.bytes 28 = r.accel.y ∧ halfAt r.bytes 30 = r.accel.z := by
  unfold PoseRecord.bytes
  simp only [List.append_assoc]
  refine ⟨?_, ?_, ?_, ?_, ?_, ?_⟩ <;> refine halfAt_number ?_ <;> simp [fieldAt_number, fieldAt_behind, fieldAt_leBytes]

/-! ### The motion write due (R67) -/

section
variable {p : Publication}

theorem Publication.due_reset (due : p.exchange.resetDue = true) (free : p.exchange.hold = false) : p.due = some .exchangeReset := by
  simp [Publication.due, due, free]

theorem Publication.due_restart (none_ : ¬ (p.exchange.resetDue = true ∧ p.exchange.hold = false)) (due : p.ringRestartDue = true) :
    p.due = some .ringRestart := by
  simp [Publication.due, none_, due]

theorem Publication.due_indicator (none_ : ¬ (p.exchange.resetDue = true ∧ p.exchange.hold = false)) (ring : p.ringRestartDue = false)
    (due : p.exchange.indicatorDue = true) : p.due = some .indicator := by
  simp [Publication.due, none_, ring, due]

theorem Publication.due_pending {r : PoseRecord} (none_ : p.exchange.resetDue = false) (ring : p.ringRestartDue = false)
    (indicator : p.exchange.indicatorDue = false) (due : p.pending = some r) : p.due = some (.exchangeRecord r) := by
  simp [Publication.due, none_, ring, indicator, due]

/-- The record at the head of the list is due when no exchange record can be written (R67, R76). -/
theorem Publication.due_list {r : PoseRecord} {rest : List PoseRecord}
    (none_ : ¬ (p.exchange.resetDue = true ∧ p.exchange.hold = false)) (ring : p.ringRestartDue = false)
    (indicator : p.exchange.indicatorDue = false) (held : p.pending = none ∨ p.exchange.resetDue = true) (head : p.list = r :: rest) :
    p.due = if p.headWritten then some (.ringControl r) else some (.ringRecord r) := by
  rcases held with empty | resetDue
  · simp [Publication.due, none_, ring, indicator, empty, head]
  · simp only [resetDue, true_and, Bool.not_eq_false] at none_
    cases pending : p.pending <;> simp [Publication.due, none_, resetDue, ring, indicator, head, pending]

end

/-- A motion grant makes the access that is due (R19, R67). -/
theorem State.motionGrant_eq {s u : State} {w : MotionWork} (t : Time) (port : s.port = none) (scan : s.scanWaiting = none)
    (audio : s.au.waiting = []) (inbound : s.inboundWaiting = false) (due : s.mu.pub.due = some w)
    (makes : { s with now := t }.grantMotion w = u) : exec (.motionGrant t) s = .next u.settle := by
  dsimp only [exec, execMotionGrant]
  rw [due]
  exact State.fire_eq (by simp [State.motionMayGo, State.audioMayGo, port, scan, audio, inbound]) makes

/-! ### The pose ring in force -/

section
variable {s : State} {l : Layout}

theorem State.poseLength_eq (layout : s.hku.layout = some l) : s.poseLength = l.poseRing.size := by simp [State.poseLength, layout]

theorem State.poseBase_eq (layout : s.hku.layout = some l) : s.poseBase = l.poseRing.base := by simp [State.poseBase, layout]

end

end Sys2Proof.Machine

open Sys2Proof Sys2Proof.Machine

/-- Settles O28: by the motion write that is due. -/
theorem motionGranted : Obligations.MotionGranted := by
  unfold Obligations.MotionGranted
  intro t s l port scan audio inbound layout
  refine ⟨fun ⟨due, free⟩ => ?_, fun no due => ?_, fun no ring due => ?_, fun r ring indicator no due => ?_,
    fun r rest no ring indicator held head => ⟨fun first => ?_, fun second => ?_⟩,
    fun r => ⟨r.bytes_length, ?_⟩, fun y => ?_⟩
  · exact State.motionGrant_eq t port scan audio inbound (Publication.due_reset due free) (by
      simp [State.grantMotion, motionAccess, PoseExchange.reset, free])
  · exact State.motionGrant_eq t port scan audio inbound (Publication.due_restart no due) (by simp [State.grantMotion, motionAccess])
  · exact State.motionGrant_eq t port scan audio inbound (Publication.due_indicator no ring due) (by
      simp [State.grantMotion, motionAccess])
  · refine State.motionGrant_eq t port scan audio inbound (Publication.due_pending no ring indicator due) ?_
    cases front : s.mu.pub.exchange.front <;> simp [State.grantMotion, motionAccess, front, Ex.other, Ex.addr]
  · have due := Publication.due_list no ring indicator held head
    rw [first] at due
    refine State.motionGrant_eq t port scan audio inbound due ?_
    have length : { s with now := t }.poseLength = l.poseRing.size := State.poseLength_eq layout
    have base : { s with now := t }.poseBase = l.poseRing.base := State.poseBase_eq layout
    simp only [State.grantMotion, motionAccess, length, base]
    rfl
  · have due := Publication.due_list no ring indicator held head
    rw [second] at due
    refine State.motionGrant_eq t port scan audio inbound due ?_
    have length : { s with now := t }.poseLength = l.poseRing.size := State.poseLength_eq layout
    simp only [State.grantMotion, motionAccess, length]
    rfl
  · obtain ⟨sequence, time, yaw, pitch, roll⟩ := r.bytes_words
    obtain ⟨yawRate, pitchRate, rollRate, x, y, z⟩ := r.bytes_halves
    exact ⟨sequence, time, yaw, pitch, roll, yawRate, pitchRate, rollRate, x, y, z⟩
  · unfold PoseExchange.indicator
    cases y.front <;> cases y.missed <;> rfl

/-- Settles O29: by the kind of the access that completes, and by whether its publication has been stopped. -/
theorem motionWritten : Obligations.MotionWritten := by
  unfold Obligations.MotionWritten
  intro t s a l port inside layout
  dsimp only [exec, execPoseRingWritten, execExchangeRecordWriteDone, execMotionAccessDone]
  refine ⟨fun r kind live => ?_, fun r into kind live free => ?_, fun r into kind live held => ?_, fun kind live => ?_, fun kind => ?_,
    fun dead => ⟨fun r kind => ?_, fun r into kind => ?_, fun kind => ?_⟩⟩
  · refine State.portDone_eq port inside r (by rw [kind]) ?_
    have length : (s.served t a).poseLength = l.poseRing.size := State.poseLength_eq layout
    rw [live, if_pos rfl, length]
    rfl
  · refine State.portDone_eq port inside (r, into) (by rw [kind]) ?_
    simp only [live, if_true, State.served_mu, PoseExchange.recordWritten, free]
    rfl
  · refine State.portDone_eq port inside (r, into) (by rw [kind]) ?_
    simp only [live, if_true, State.served_mu, PoseExchange.recordWritten, held]
  · exact State.portDone_eq port inside true (by rw [kind]) (by rw [live]; rfl)
  · refine State.portDone_eq port inside false ?_ rfl
    rcases kind with reset | restart | indicator
    · rw [reset]
    · rw [restart]
    · rw [indicator]
  · exact State.portDone_eq port inside r (by rw [kind]) (by rw [dead]; rfl)
  · exact State.portDone_eq port inside (r, into) (by rw [kind]) (by rw [dead]; rfl)
  · exact State.portDone_eq port inside true (by rw [kind]) (by rw [dead]; rfl)

end

section
/-! SUPPORT. The frame boundary as a whole: the frame that ends, the frame that begins, and the notices (R93 to R97, R102, R118 to
R120). -/

namespace Sys2Proof.Machine

/-! ### The panel ports -/

/-- The frame a panel port has sent when its frame ends: the rest is of the fill colour (R118, log entry 42). -/
def PanelPort.lastFrame (p : PanelPort) (size : Nat) (fill : Rgb) : Option PanelFrame :=
  (p.frame.map fun f => ⟨f.pixels, size - f.pixels.length, fill⟩).or p.ended

theorem PanelPort.complete_eq (p : PanelPort) (size : Nat) (fill : Rgb) : p.complete size fill = ⟨none, p.lastFrame size fill⟩ := by
  obtain ⟨frame, ended⟩ := p
  cases frame <;> rfl

/-! ### The frame that ends -/

theorem State.endScan_eq (s : State) : s.endScan = { s with
    port := s.port.map fun a => if a.kind = .pixels .left ∨ a.kind = .pixels .right then { a with live := false } else a
    ssu := { s.ssu with
      boundaryTime := s.now, scan := none, rowsDue := 0, litInterval := false
      left := ⟨none, s.ssu.left.lastFrame s.hku.settings.panelPixels s.fcu.fill⟩
      right := ⟨none, s.ssu.right.lastFrame s.hku.settings.panelPixels s.fcu.fill⟩ } } := by
  simp only [State.endScan, State.dropAccess_eq, PanelPort.complete_eq]
  congr 2
  funext a
  obtain ⟨kind, addr, transfer, live⟩ := a
  cases kind with
  | pixels eye => cases eye <;> rfl
  | _ => rfl

/-- A boundary that does not show the slot again drops every scan-out access in service (R18, log entry 16). -/
theorem State.endScan_dropChosen_eq (s : State) : s.endScan.dropChosen = { s with
    port := s.port.map fun a => if a.kind.client = .scanOut then { a with live := false } else a
    ssu := { s.ssu with
      boundaryTime := s.now, scan := none, chosen := none, rowsDue := 0, litInterval := false
      left := ⟨none, s.ssu.left.lastFrame s.hku.settings.panelPixels s.fcu.fill⟩
      right := ⟨none, s.ssu.right.lastFrame s.hku.settings.panelPixels s.fcu.fill⟩ } } := by
  rw [State.endScan_eq]
  simp only [State.dropChosen, State.dropAccess_eq, Option.map_map]
  congr 2
  funext a
  obtain ⟨kind, addr, transfer, live⟩ := a
  cases kind with
  | pixels eye => cases eye <;> rfl
  | _ => rfl

/-! ### The frame that begins -/

/-- What the SSU holds when a frame begins, with so many pixels of the fill colour on each panel port (R102, R103, R115, R119). -/
def State.frameBegun (s : State) (count : Nat) : Ssu :=
  { s.ssu with
    boundaryTime := s.now
    lit := litDuration s.hku.settings s.fcu.litRequest s.hku.settings.levels[s.pu.level].lit
    trims := s.ssu.requested.getD s.ssu.trims
    requested := none
    rowsDue := 0
    scan := none
    litInterval := false
    left := ⟨some ⟨[], count, s.fcu.fill⟩, s.ssu.left.lastFrame s.hku.settings.panelPixels s.fcu.fill⟩
    right := ⟨some ⟨[], count, s.fcu.fill⟩, s.ssu.right.lastFrame s.hku.settings.panelPixels s.fcu.fill⟩ }

theorem State.endScan_beginFrame_eq (s : State) (count : Nat) : s.endScan.beginFrame count = { s with
    port := s.port.map fun a => if a.kind = .pixels .left ∨ a.kind = .pixels .right then { a with live := false } else a
    ssu := s.frameBegun count } := by
  rw [State.endScan_eq]
  rfl

theorem State.dropChosen_beginFrame_eq (s : State) (count : Nat) : s.endScan.dropChosen.beginFrame count = { s with
    port := s.port.map fun a => if a.kind.client = .scanOut then { a with live := false } else a
    ssu := { s.frameBegun count with chosen := none } } := by
  rw [State.endScan_dropChosen_eq]
  rfl

/-! ### The notices and counters of a choice -/

/-- More slots skipped (R94). -/
def Hku.addSkipped (h : Hku) (n : Word) : Hku := { h with counters.skipped := h.counters.skipped + n }

/-- One more frame shown (R94). -/
def Hku.addShown (h : Hku) : Hku := { h with counters.framesShown := h.counters.framesShown + 1 }

theorem Hku.addSkipped_post (h : Hku) (n : Word) (t : Time) (x : Notice) : (h.addSkipped n).post t x = (h.post t x).addSkipped n := by
  unfold Hku.post
  by_cases room : (h.noticeProducer - h.noticeConsumer).toNat < Config.noticeLimit
  · rw [if_pos room, if_pos (by exact room)]; rfl
  · rw [if_neg room, if_neg (by exact room)]; rfl

theorem Hku.addShown_post (h : Hku) (t : Time) (x : Notice) : h.addShown.post t x = (h.post t x).addShown := by
  unfold Hku.post
  by_cases room : (h.noticeProducer - h.noticeConsumer).toNat < Config.noticeLimit
  · rw [if_pos room, if_pos (by exact room)]; rfl
  · rw [if_neg room, if_neg (by exact room)]; rfl

theorem Hku.addSkipped_addSkipped (h : Hku) (m n : Word) : (h.addSkipped m).addSkipped n = h.addSkipped (m + n) := by
  simp [Hku.addSkipped, BitVec.add_assoc]

theorem Fcu.update_submitValue (f : Fcu) (k : Fin 4) {g : Slot → Slot} (same : ∀ x, (g x).submitValue = x.submitValue) (j : Fin 4) :
    (f.update k g).slots[j].submitValue = f.slots[j].submitValue := by
  rw [Fcu.update_slots]
  split
  · exact same _
  · rfl

theorem Fcu.updates_submitValue (f : Fcu) (l : List (Fin 4)) {g : Slot → Slot} (same : ∀ x, (g x).submitValue = x.submitValue)
    (j : Fin 4) : (f.updates l g).slots[j].submitValue = f.slots[j].submitValue := by
  induction l generalizing f with
  | nil => rfl
  | cons k l ih => rw [Fcu.updates_cons, ih, Fcu.update_submitValue f k same]

theorem Fcu.showingFreed_submitValue (f : Fcu) (j : Fin 4) : f.showingFreed.slots[j].submitValue = f.slots[j].submitValue := by
  unfold Fcu.showingFreed
  split
  · exact Fcu.update_submitValue _ _ (g := (·.freed .shown)) (fun _ => rfl) _
  · rfl

/-- Every older QUEUED slot is counted and told, in order (R94). -/
theorem State.skips_hku (l : List (Fin 4)) (s : State) : (l.foldl State.skipSlot s).hku =
    (l.map fun j => Notice.frameSkipped j s.fcu.slots[j].submitValue).foldl (fun (h : Hku) n => h.post s.now n)
      (s.hku.addSkipped (BitVec.ofNat 32 l.length)) := by
  induction l generalizing s with
  | nil => simp [Hku.addSkipped]
  | cons k l ih =>
    have told (j : Fin 4) : Notice.frameSkipped j (s.skipSlot k).fcu.slots[j].submitValue =
        .frameSkipped j s.fcu.slots[j].submitValue := congrArg _ (Fcu.update_submitValue s.fcu k (g := (·.freed .skipped)) (fun _ => rfl) j)
    have first : (s.skipSlot k).hku.addSkipped (BitVec.ofNat 32 l.length) =
        (s.hku.addSkipped (BitVec.ofNat 32 (k :: l).length)).post s.now (.frameSkipped k s.fcu.slots[k].submitValue) := by
      have counted : (k :: l).length = 1 + l.length := by rw [List.length_cons, Nat.add_comm]
      rw [counted, BitVec.ofNat_add, ← Hku.addSkipped_addSkipped, Hku.addSkipped_post]
      rfl
    rw [List.foldl_cons, ih, first]
    simp only [told]
    rfl

/-- The end of an episode of lost content is told last (R94). -/
theorem State.resumeContent_hku (s : State) (k : Fin 4) : (s.resumeContent k).hku =
    (if s.fcu.contentLost then [Notice.contentResumed k s.fcu.slots[k].submitValue] else []).foldl
      (fun (h : Hku) n => h.post s.now n) s.hku := by
  unfold State.resumeContent
  by_cases lost : s.fcu.contentLost = true
  · rw [if_pos lost, if_pos lost]; rfl
  · rw [if_neg lost, if_neg lost]; rfl

/-! ### The boundary as a whole -/

theorem State.skips_eq (l : List (Fin 4)) (s : State) : l.foldl State.skipSlot s =
    { s with fcu := (l.foldl State.skipSlot s).fcu, hku := (l.foldl State.skipSlot s).hku } := by
  induction l generalizing s with
  | nil => rfl
  | cons k l ih => rw [List.foldl_cons, ih]; rfl

theorem State.releaseShowing_eq (s : State) : s.releaseShowing = { s with fcu := s.fcu.showingFreed } := by
  unfold State.releaseShowing Fcu.showingFreed
  cases s.fcu.showingSlot <;> rfl

theorem State.resumeContent_eq (s : State) (k : Fin 4) :
    s.resumeContent k = { s with fcu := (s.resumeContent k).fcu, hku := (s.resumeContent k).hku } := by
  unfold State.resumeContent
  split <;> rfl

/-- The state of a choice before an episode of lost content ends: the slots, the counters and the skipped (R94). -/
def State.choosing (s : State) (older : List (Fin 4)) (k : Fin 4) : State :=
  let s := (older.foldl State.skipSlot s).releaseShowing
  { s.updateSlot k (·.chosen s.now) with
    fcu.queue := []
    fcu.display := .showing
    hku.counters.framesShown := s.hku.counters.framesShown + 1 }

theorem State.choosing_eq (s : State) (older : List (Fin 4)) (k : Fin 4) : s.choosing older k = { s with
    fcu := { (s.fcu.updates older (·.freed .skipped)).showingFreed.update k (·.chosen s.now) with queue := [], display := .showing }
    hku := ((older.map fun j => Notice.frameSkipped j s.fcu.slots[j].submitValue).foldl (fun (h : Hku) n => h.post s.now n)
      (s.hku.addSkipped (BitVec.ofNat 32 older.length))).addShown } := by
  rw [← State.skips_hku, ← State.skips_fcu]
  simp only [State.choosing]
  rw [State.releaseShowing_eq, State.skips_eq]
  rfl

theorem Fcu.choosing_submitValue (f : Fcu) (older : List (Fin 4)) (k j : Fin 4) (t : Time) :
    ((f.updates older (·.freed .skipped)).showingFreed.update k (·.chosen t)).slots[j].submitValue = f.slots[j].submitValue := by
  rw [Fcu.update_submitValue _ _ (g := (·.chosen t)) (fun _ => rfl), Fcu.showingFreed_submitValue,
    Fcu.updates_submitValue _ _ (g := (·.freed .skipped)) fun _ => rfl]

theorem Fcu.updates_contentLost (f : Fcu) (l : List (Fin 4)) (g : Slot → Slot) : (f.updates l g).contentLost = f.contentLost := by
  rw [Fcu.updates_eq]

theorem Fcu.showingFreed_contentLost (f : Fcu) : f.showingFreed.contentLost = f.contentLost := by
  unfold Fcu.showingFreed
  split <;> rfl

/-- Counting the frame shown before or after the notices is one. -/
theorem Hku.addShown_posts (h : Hku) (t : Time) (l : List Notice) :
    l.foldl (fun (h : Hku) n => h.post t n) h.addShown = (l.foldl (fun (h : Hku) n => h.post t n) h).addShown :=
  List.foldl_hom Hku.addShown fun h n => h.addShown_post t n

/-- A choice before the frames change (R94). -/
theorem State.chosen_eq (s : State) (older : List (Fin 4)) (k : Fin 4) : (s.choosing older k).resumeContent k = { s with
    fcu := ((s.choosing older k).resumeContent k).fcu
    hku := (older.map (fun j => Notice.frameSkipped j s.fcu.slots[j].submitValue) ++
        if s.fcu.contentLost then [Notice.contentResumed k s.fcu.slots[k].submitValue] else []).foldl
      (fun (h : Hku) n => h.post s.now n) (s.hku.addSkipped (BitVec.ofNat 32 older.length)).addShown } := by
  have lost : (s.choosing older k).fcu.contentLost = s.fcu.contentLost := by
    rw [State.choosing_eq]
    exact (Fcu.showingFreed_contentLost _).trans (Fcu.updates_contentLost _ _ _)
  have value : (s.choosing older k).fcu.slots[k].submitValue = s.fcu.slots[k].submitValue := by
    rw [State.choosing_eq]
    exact Fcu.choosing_submitValue s.fcu older k k s.now
  have now : (s.choosing older k).now = s.now := by rw [State.choosing_eq]
  have hku := State.resumeContent_hku (s.choosing older k) k
  rw [lost, value, now] at hku
  rw [State.resumeContent_eq, hku, List.foldl_append, Hku.addShown_posts]
  rw [State.choosing_eq]

theorem Hku.posts_settings (h : Hku) (t : Time) (l : List Notice) :
    (l.foldl (fun (h : Hku) n => h.post t n) h).settings = h.settings := by
  induction l generalizing h with
  | nil => rfl
  | cons n l ih => rw [List.foldl_cons, ih, Hku.post_settings]

theorem Fcu.showingFreed_eq (f : Fcu) : f.showingFreed = { f with slots := f.showingFreed.slots } := by
  unfold Fcu.showingFreed
  split <;> rfl

/-- A choice changes slots, queue and display (R94). -/
theorem State.chosen_fcu (s : State) (older : List (Fin 4)) (k : Fin 4) : ((s.choosing older k).resumeContent k).fcu = { s.fcu with
    slots := ((s.choosing older k).resumeContent k).fcu.slots, queue := [], display := .showing, contentLost := false } := by
  rw [State.resumeContent_fcu, State.choosing_eq]
  simp only [Fcu.update]
  rw [Fcu.showingFreed_eq, Fcu.updates_eq]

/-- A boundary that chooses (R94, R97, R102). -/
theorem State.chooseBoundary_eq (s : State) (older : List (Fin 4)) (k : Fin 4) : s.chooseBoundary older k = { s with
    port := s.port.map fun a => if a.kind.client = .scanOut then { a with live := false } else a
    fcu := (s.chooseBoundary older k).fcu
    ssu := { s.frameBegun 0 with chosen := some k, rowsDue := 1 }
    hku := (older.map (fun j => Notice.frameSkipped j s.fcu.slots[j].submitValue) ++
        if s.fcu.contentLost then [Notice.contentResumed k s.fcu.slots[k].submitValue] else []).foldl
      (fun (h : Hku) n => h.post s.now n) (s.hku.addSkipped (BitVec.ofNat 32 older.length)).addShown } := by
  have whole : s.chooseBoundary older k = { ((s.choosing older k).resumeContent k).endScan.dropChosen.beginFrame 0 with
      ssu.chosen := some k, ssu.rowsDue := 1 } := rfl
  have settings := Hku.posts_settings (s.hku.addSkipped (BitVec.ofNat 32 older.length)).addShown s.now
    (older.map (fun j => Notice.frameSkipped j s.fcu.slots[j].submitValue) ++
      if s.fcu.contentLost then [Notice.contentResumed k s.fcu.slots[k].submitValue] else [])
  have begun : ((s.choosing older k).resumeContent k).frameBegun 0 = s.frameBegun 0 := by
    rw [State.chosen_eq, State.chosen_fcu]
    simp only [State.frameBegun, settings]
    rfl
  rw [whole, State.dropChosen_beginFrame_eq, begun, State.chosen_eq]

/-- The state in which a boundary without stop_pending makes its case: the next boundary is a frame period later (R90). -/
def State.nextBoundary (s : State) : State :=
  { s with fcu.boundary := some (s.now + BitVec.ofNat 32 s.hku.settings.framePeriod) }

/-- A boundary without stop_pending (R94 to R97). -/
theorem State.boundary_choose {s : State} {older : List (Fin 4)} {k : Fin 4} (goes : s.fcu.stopPending = false)
    (queue : s.fcu.queue = older ++ [k]) :
    s.boundary = s.nextBoundary.chooseBoundary older k := by
  simp [State.boundary, State.nextBoundary, goes, queue]

theorem State.boundary_empty {s : State} (goes : s.fcu.stopPending = false) (queue : s.fcu.queue = []) : s.boundary =
    match s.fcu.showingSlot with
    | some k =>
      if s.fcu.slots[k].shown ≤ s.fcu.repeatLimit then s.nextBoundary.repeatBoundary k
      else (s.nextBoundary.loseContent k).blankBoundary
    | none => s.nextBoundary.blankBoundary := by
  unfold State.boundary
  rw [if_neg (by simp [goes])]
  dsimp only
  rw [show s.fcu.queue.getLast? = none by rw [queue]; rfl]
  have same : Fcu.showingSlot { s.fcu with boundary := some (s.now + BitVec.ofNat 32 s.hku.settings.framePeriod) } =
      s.fcu.showingSlot := rfl
  rw [same]
  cases s.fcu.showingSlot <;> rfl

/-- The SHOWING slot is the one that is found. -/
theorem Fcu.QueueOk.showingSlot {f : Fcu} (h : f.QueueOk) {k : Fin 4} (showing : f.slots[k].state = .showing) :
    f.showingSlot = some k := by
  cases found : f.showingSlot with
  | none =>
    have dark := List.find?_eq_none.mp found k (mem_allSlots k)
    simp [-Fin.getElem_fin, showing] at dark
  | some j => rw [h.unique (Fcu.showingSlot_some found) showing]

/-- A display that does not show has no SHOWING slot. -/
theorem Fcu.QueueOk.showingSlot_none {f : Fcu} (h : f.QueueOk) (dark : f.display ≠ .showing) : f.showingSlot = none := by
  cases found : f.showingSlot with
  | none => rfl
  | some j => exact absurd (h.shows (Fcu.showingSlot_some found)) dark

end Sys2Proof.Machine
end

section
/-! SUPPORT. The showing of a slot, and the frame boundaries of section 5.4 (R90 to R97, R102 to R113). -/

namespace Sys2Proof.Machine

/-! ### The showing of a slot -/

/-- The shift results depend on the settings, the trims, the frame's times and the MU (R105 to R112). -/
theorem State.results_congr {s u : State} {h : ConsoleHalf} (settings : u.hku.settings = s.hku.settings) (trims : u.ssu.trims = s.ssu.trims)
    (time : u.ssu.boundaryTime = s.ssu.boundaryTime) (lit : u.ssu.lit = s.ssu.lit) (mu : u.mu = s.mu) : u.results h = s.results h := by
  have rotation : u.rotation h = s.rotation h := by
    unfold State.rotation
    simp only [settings, time, lit, mu]
  unfold State.results
  rw [rotation, settings, trims]

/-- The notice of a stale showing outside an episode (R108). -/
def State.staleNoted (s : State) (k : Fin 4) (h : ConsoleHalf) (stale : Bool) : Hku :=
  if stale = true ∧ s.ssu.stale = false then
    s.hku.post s.ssu.boundaryTime (.poseStale k s.fcu.slots[k].submitValue h.poseSequence)
  else s.hku

theorem State.noteStale_eq (s : State) (k : Fin 4) (h : ConsoleHalf) (stale : Bool) :
    s.noteStale k h stale = { s with hku := s.staleNoted k h stale, ssu.stale := stale } := by
  unfold State.noteStale State.staleNoted
  cases stale <;> cases s.ssu.stale <;> rfl

theorem State.staleNoted_settings (s : State) (k : Fin 4) (h : ConsoleHalf) (stale : Bool) :
    (s.staleNoted k h stale).settings = s.hku.settings := by
  unfold State.staleNoted
  split
  · exact Hku.post_settings ..
  · rfl

theorem State.staleNoted_layout (s : State) (k : Fin 4) (h : ConsoleHalf) (stale : Bool) :
    (s.staleNoted k h stale).layout = s.hku.layout := by
  unfold State.staleNoted
  split
  · exact Hku.post_layout ..
  · rfl

/-- A showing as a whole (R102 to R117, R175). -/
theorem State.showSlot_eq (s : State) (k : Fin 4) (h : ConsoleHalf) : s.showSlot k h = { s with
    fcu := s.fcu.update k (·.withResults (s.results h))
    ssu := { s.ssu with
      results := s.results h, stale := (s.results h).poseStale, output := .image k, chosen := none
      scan := some (Scan.start s.hku.settings (s.slotHeader k) k (s.results h).shift) }
    hku := { s.staleNoted k h (s.results h).poseStale with statusDue := true } } := by
  simp only [State.showSlot]
  rw [State.noteStale_eq]
  simp only [State.updateSlot, State.slotHeader, State.staleNoted_settings, State.staleNoted_layout]

/-! ### The slot shown again -/

theorem Fcu.update_update (f : Fcu) (k : Fin 4) (g h : Slot → Slot) : (f.update k g).update k h = f.update k fun x => h (g x) := by
  simp [Fcu.update]

theorem State.repeating_eq (s : State) (k : Fin 4) : s.repeating k = { s with
    port := s.port.map fun a => if a.kind = .pixels .left ∨ a.kind = .pixels .right then { a with live := false } else a
    fcu := s.fcu.update k Slot.repeated
    ssu := { s.frameBegun 0 with rowsDue := 1 }
    hku := { s.hku with counters := { s.hku.counters with
      repeated := s.hku.counters.repeated + 1, framesShown := s.hku.counters.framesShown + 1 } } } := by
  simp only [State.repeating]
  rw [State.endScan_beginFrame_eq]
  rfl

/-! ### The boundaries with an empty queue -/

theorem State.blankBoundary_eq (s : State) : s.blankBoundary = { s with
    port := s.port.map fun a => if a.kind.client = .scanOut then { a with live := false } else a
    ssu := { s.frameBegun s.hku.settings.panelPixels with chosen := none, output := .fill }
    hku.statusDue := true } := by
  rw [State.blankBoundary, State.dropChosen_beginFrame_eq]

theorem State.loseContent_settings (s : State) (k : Fin 4) : (s.loseContent k).hku.settings = s.hku.settings := Hku.post_settings ..

theorem State.loseContent_frameBegun (s : State) (k : Fin 4) (count : Nat) : (s.loseContent k).frameBegun count = s.frameBegun count := by
  unfold State.frameBegun
  rw [State.loseContent_settings]
  rfl

section
variable {s : State} (goes : s.fcu.stopPending = false) (queue : s.fcu.queue = [])
include goes queue

theorem State.boundary_blank (dark : s.fcu.showingSlot = none) : s.boundary = s.nextBoundary.blankBoundary := by
  rw [State.boundary_empty goes queue, dark]

theorem State.boundary_repeat {k : Fin 4} (showing : s.fcu.showingSlot = some k) (within : s.fcu.slots[k].shown ≤ s.fcu.repeatLimit) :
    s.boundary = s.nextBoundary.repeatBoundary k := by
  rw [State.boundary_empty goes queue, showing]
  exact if_pos within

theorem State.boundary_lose {k : Fin 4} (showing : s.fcu.showingSlot = some k) (beyond : s.fcu.repeatLimit < s.fcu.slots[k].shown) :
    s.boundary = (s.nextBoundary.loseContent k).blankBoundary := by
  rw [State.boundary_empty goes queue, showing]
  exact if_neg (Nat.not_le.mpr beyond)

end

end Sys2Proof.Machine

open Sys2Proof Sys2Proof.Machine

/-- Settles O30: by the boundary that chooses, from the FRAME_BOUNDARY and from the ramp's end. -/
theorem boundaryChooses : Obligations.BoundaryChooses := by
  unfold Obligations.BoundaryChooses
  intro t s older k c still ok fires goes queue
  have queueOk := (s.slotsOk_iff.mp ok).1
  let ramp : Prop := s.fcu.display = .powering
  let v : State := { s with
    now := t
    fcu := { s.fcu with display := if ramp then .blank else s.fcu.display, ramp := if ramp then none else s.fcu.ramp }
    ssu.output := if ramp then .fill else s.ssu.output
    hku.statusTimer := if ramp then none else s.hku.statusTimer }
  have run : exec c s = .next v.boundary.settle := by
    rcases fires with ⟨rfl, display, due⟩ | ⟨rfl, display, due⟩
    · have runs : ¬ ramp := by rcases display with blank | showing <;> simp [ramp, *]
      dsimp only [exec, execFrameBoundary]
      rw [still]
      exact State.fire_eq (by simpa [due] using display) (by simp only [v, if_neg runs])
    · dsimp only [exec, execRampTimerExpiry]
      rw [still]
      exact State.fire_eq (by simp [display, due]) (by simp only [v, if_pos (show ramp from display)])
  have okV : v.nextBoundary.fcu.QueueOk := queueOk.of_eq rfl rfl (by
    simp only [v, State.nextBoundary]
    split
    · rename_i powering
      simp [show s.fcu.display = .powering from powering]
    · rfl)
  have slots (j : Fin 4) : (v.nextBoundary.chooseBoundary older k).fcu.slots[j] =
      if j = k then s.fcu.slots[j].chosen t
      else if j ∈ older then s.fcu.slots[j].freed .skipped
      else if s.fcu.slots[j].state = .showing then s.fcu.slots[j].freed .shown
      else s.fcu.slots[j] := State.chooseBoundary_slots okV queue j
  have queued (j : Fin 4) : j ∈ older ∨ j = k ↔ s.fcu.slots[j].state = .queued := by
    rw [← queueOk.queued, queue, List.mem_append, List.mem_singleton]
  have apart (j : Fin 4) (other : s.fcu.slots[j].state ≠ .queued) : j ≠ k ∧ j ∉ older :=
    ⟨fun e => other ((queued j).mp (.inr e)), fun mem => other ((queued j).mp (.inl mem))⟩
  have whole := v.nextBoundary.chooseBoundary_eq older k
  refine ⟨v.nextBoundary.chooseBoundary older k, ?_, ?_, ?_, ?_, ?_, fun j mem => ?_, fun j showing => ?_, fun j waits => ?_, ?_, ?_⟩
  · rw [run, State.boundary_choose (by exact goes) (by exact queue)]
  · rw [whole]; rfl
  · rw [whole]; rfl
  · rw [State.chooseBoundary_fcu]
    simp only [Fcu.update]
    rw [Fcu.showingFreed_eq, Fcu.updates_eq]
    rfl
  · rw [slots, if_pos rfl]; rfl
  · have newest : j ≠ k := fun e =>
      List.disjoint_of_nodup_append (queue ▸ queueOk.once) mem (List.mem_singleton.mpr e)
    rw [slots, if_neg newest, if_pos mem]; rfl
  · obtain ⟨newest, fresh⟩ := apart j (by rw [showing]; decide)
    rw [slots, if_neg newest, if_neg fresh, if_pos showing]; rfl
  · obtain ⟨newest, fresh⟩ := apart j (by rcases waits with state | state <;> rw [state] <;> decide)
    have dark : s.fcu.slots[j].state ≠ .showing := by rcases waits with state | state <;> rw [state] <;> decide
    rw [slots, if_neg newest, if_neg fresh, if_neg dark]
  · rw [whole]; rfl
  · rw [whole]; rfl

/-- Settles O31: through the state in which the repeated slot's showing begins. -/
theorem boundaryRepeats : Obligations.BoundaryRepeats := by
  unfold Obligations.BoundaryRepeats
  intro t s k half still ok display due goes queue showing read within
  have queueOk := (s.slotsOk_iff.mp ok).1
  let v : State := { s with now := t }.nextBoundary
  let w := v.repeating k
  let u := w.showSlot k half
  have same : u.results half = w.results half := by
    refine State.results_congr ?_ ?_ ?_ ?_ ?_
    all_goals simp only [u, State.showSlot_eq, State.staleNoted_settings]
  have whole : u = { s with
      now := t
      port := s.port.map fun a => if a.kind = .pixels .left ∨ a.kind = .pixels .right then { a with live := false } else a
      fcu := (v.fcu.update k Slot.repeated).update k (·.withResults (u.results half))
      ssu := { v.frameBegun 0 with
        rowsDue := 1, results := u.results half, stale := (u.results half).poseStale, output := .image k, chosen := none
        scan := some (Scan.start s.hku.settings (s.slotHeader k) k (u.results half).shift) }
      hku := { w.staleNoted k half (u.results half).poseStale with statusDue := true } } := by
    rw [same]
    simp only [u]
    rw [State.showSlot_eq]
    simp only [w]
    rw [State.repeating_eq]
    rfl
  refine ⟨u, ?_, ?_, ?_, ?_, ?_, ?_⟩
  · dsimp only [exec, execFrameBoundary]
    rw [still]
    refine State.fire_eq (by simp [display, due]) ?_
    have half_ : w.fcu.slots[k].half = some half := by
      rw [State.repeating_fcu, Fcu.update_slots_same]
      exact read
    rw [State.boundary_repeat (by exact goes) (by exact queue) (by exact queueOk.showingSlot showing) (by exact within),
      State.repeatBoundary_eq, half_]
  · rw [whole]
  · rw [whole]
  · exact (congrArg State.fcu whole).trans (by rw [Fcu.update_update]; rfl)
  · refine (congrArg State.hku whole).trans ?_
    simp only [w]
    rw [State.repeating_eq]
    simp only [State.staleNoted, Fcu.update_slots_same]
    rfl
  · exact (congrArg State.ssu whole).trans rfl

/-- Settles O32: by the display and the slot it shows. -/
theorem boundaryBlanks : Obligations.BoundaryBlanks := by
  unfold Obligations.BoundaryBlanks
  intro t s still ok goes queue next size begun port filled
  have queueOk := (s.slotsOk_iff.mp ok).1
  refine ⟨fun blank due => ?_, fun powering due => ?_, fun k display due showing beyond => ?_⟩
  · dsimp only [exec, execFrameBoundary]
    rw [still]
    refine State.fire_eq (by simp [blank, due]) ?_
    rw [State.boundary_blank (by exact goes) (by exact queue) (by exact queueOk.showingSlot_none (by rw [blank]; decide)),
      State.blankBoundary_eq]
    rfl
  · dsimp only [exec, execRampTimerExpiry]
    rw [still]
    refine State.fire_eq (by simp [powering, due]) ?_
    rw [State.boundary_blank (by exact goes) (by exact queue) (by exact queueOk.showingSlot_none (by rw [powering]; decide)),
      State.blankBoundary_eq]
    rfl
  · dsimp only [exec, execFrameBoundary]
    rw [still]
    refine State.fire_eq (by simp [display, due]) ?_
    rw [State.boundary_lose (by exact goes) (by exact queue) (by exact queueOk.showingSlot showing) (by exact beyond),
      State.blankBoundary_eq, State.loseContent_frameBegun, State.loseContent_settings]
    rfl

/-- Settles O33: by the boundary that stops. -/
theorem boundaryStops : Obligations.BoundaryStops := by
  unfold Obligations.BoundaryStops
  intro t s still display due stops
  have whole : { s with now := t }.boundary = { s with now := t }.stopBoundary := if_pos stops
  refine ⟨{ s with now := t }.stopBoundary, ?_, ?_, ?_, fun k => ?_⟩
  · dsimp only [exec, execFrameBoundary]
    rw [still]
    exact State.fire_eq (by simpa [due] using display) whole
  · simp only [State.stopBoundary, State.endScan_dropChosen_eq]
    rfl
  · rw [State.stopBoundary_fcu]
  · have slot : { s with now := t }.stopBoundary.fcu.slots[k] = s.fcu.slots[k].stopped := by
      rw [State.stopBoundary_fcu]
      simp
    rw [slot]
    refine ⟨fun free => ?_, fun showing => ?_, fun waits => ?_⟩
    · simp only [Slot.stopped, free]
    · simp only [Slot.stopped, showing]; rfl
    · rcases waits with queued | waiting
      · simp only [Slot.stopped, queued]; rfl
      · simp only [Slot.stopped, waiting]; rfl

end

section
/-! SUPPORT. The late shift and the scan-out (R62, R63, R104 to R119). -/

namespace Sys2Proof.Machine

theorem predictionTime_cast (target last : Time) :
    (predictionTime target last : Int) = max 0 (min 50000 (target - last).toInt) :=
  Int.toNat_of_nonneg (le_max_left _ _)

/-- A showing whose pose is not found, or for which the MU predicts nothing, is stale (R107, R109). -/
theorem State.rotation_none {s : State} {h : ConsoleHalf} (pose : h.poseSequence ≠ 0) (shift : h.noShift = false)
    (fails : (∀ r ∈ s.mu.pub.history, r.sequence ≠ h.poseSequence) ∨ s.mu.motion = .off) : s.rotation h = none := by
  simp only [State.rotation, pose, shift, Bool.false_eq_true, or_self, if_false]
  rcases fails with missing | off
  · have lookup : s.mu.pub.lookup h.poseSequence = none := by
      rw [Publication.lookup, List.find?_eq_none]
      exact fun r mem => by simpa using missing r mem
    rw [lookup]
  · have predicted (target : Time) : (s.mu.predict target).angles = none := by simp [Mu.predict, off]
    rw [predicted]
    cases s.mu.pub.lookup h.poseSequence <;> rfl

@[simp] theorem Memory.readBytes_length (m : Memory) (a n : Nat) : (m.readBytes a n).length = n := by
  induction n generalizing a with
  | zero => rfl
  | succ n ih => rw [Memory.readBytes, List.length_cons, ih]

theorem Access.fetch_length (a : Access) (m : Memory) : (a.fetch m).length = a.transfer.length := m.readBytes_length _ _

theorem Scan.advance_eq (n : Scan) (c : Settings) (len : Nat) : n.advance c len =
    if n.done + len < c.panelWidth * 4 then some { n with done := n.done + len }
    else if n.eye = Eye.left then some { n with eye := .right, done := 0 }
    else if n.row + 1 < c.panelHeight then some { n with row := n.row + 1, eye := .left, done := 0 }
    else none := by
  obtain ⟨slot, base, left, right, origin, row, eye, done⟩ := n
  cases eye <;> rfl

end Sys2Proof.Machine

open Sys2Proof Sys2Proof.Machine

/-- Settles O34: by the motion state for the prediction, by the checks of R106 to R109 for the shift. -/
theorem shiftComputed : Obligations.ShiftComputed := by
  unfold Obligations.ShiftComputed
  refine ⟨fun m target => ⟨rfl, fun off => ?_, fun stalled => ?_, fun running => ?_⟩, fun s half => ⟨fun none_ => ?_,
    fun pose fixed => ?_, fun pose shift fails => ?_, fun r p pose shift found predicted => ?_⟩⟩
  · simp only [Mu.predict, off]
  · simp only [Mu.predict, stalled]
  · simp only [Mu.predict, running, predictAxis, moveAngle, predictionTime_cast]
  · simp only [State.results, State.rotation, none_, true_or, if_true]
    rfl
  · simp only [State.results, State.rotation, fixed, or_true, if_true, beq_eq_false_iff_ne.mpr pose]
    rfl
  · simp only [State.results, State.rotation_none pose shift fails]
    rfl
  · have lookup : s.mu.pub.lookup half.poseSequence = some r := found
    have target : (s.mu.predict (targetTime s.ssu.boundaryTime s.hku.settings s.ssu.lit)).angles = some p := predicted
    simp only [State.results, State.rotation, pose, shift, Bool.false_eq_true, or_self, if_false, lookup, target,
      beq_eq_false_iff_ne.mpr pose]
    rfl

/-- Settles O35: by the showing of the slot whose console half has been read. -/
theorem slotShown : Obligations.SlotShown := by
  unfold Obligations.SlotShown
  intro t s a k port inside kind bytes half r c noted
  dsimp only [exec, execConsoleHalfReadDone]
  refine ⟨fun live => ?_, fun dead => State.portDone_eq port inside k (by rw [kind]) (by rw [dead]; rfl)⟩
  refine State.portDone_eq port inside k (by rw [kind]) ?_
  have results : ((s.served t a).updateSlot k fun x => { x with half := some (consoleHalfOf (a.fetch s.mem)) }).results half = r :=
    State.results_congr rfl rfl rfl rfl rfl
  rw [live, if_pos rfl]
  refine (State.showSlot_eq _ k half).trans ?_
  rw [results]
  simp only [State.staleNoted, State.updateSlot, Fcu.update_update, Fcu.update_slots_same]
  rfl

/-- Settles O36. -/
theorem scanOutRuns : Obligations.ScanOutRuns := by
  unfold Obligations.ScanOutRuns
  refine ⟨fun r g b x rest => rfl, rfl, fun t s => ?_⟩
  intro c width sent
  refine ⟨fun n => ?_, fun k l chosen layout => ?_, fun n none_ scan => ?_, fun none_ idle => ?_, fun still scans more due => ?_,
    fun a n len port inside live scan read kind => ?_, fun a eye port inside dead kind => ?_, fun still lit dark due => ?_,
    fun still lit due => ?_⟩
  · obtain ⟨slot, base, left, right, origin, row, eye, done⟩ := n
    cases eye
    · rfl
    · simp only [Scan.access, Nat.add_assoc, reduceCtorEq, if_false]
      rfl
  · simp only [State.scanWaiting, chosen, layout]
    rfl
  · simp only [State.scanWaiting, none_, scan]
    rfl
  · simp only [State.scanWaiting, none_, idle]
  · dsimp only [exec, execScanRowDue]
    rw [still]
    have scanning : s.ssu.scanning = true := by
      rw [Ssu.scanning, Bool.or_eq_true, Option.isSome_iff_ne_none, Option.isSome_iff_ne_none]
      exact scans
    exact State.fire_eq (by simp [scanning, more, due, rowTime, c]) rfl
  · have length : (a.fetch s.mem).length = len := by simp [Access.fetch_length, read, Transfer.length]
    dsimp only [exec, execScanAccessDone]
    refine State.portDone_eq port inside n.eye (by rw [kind]) ?_
    have after : (s.ssu.scan.bind fun n => n.advance c (a.fetch s.mem).length) = n.advance c len := by rw [scan, length]; rfl
    rw [live, if_pos rfl]
    simp only [State.served_ssu, State.served_hku]
    rw [after, Scan.advance_eq]
    cases n.eye <;> rfl
  · dsimp only [exec, execScanAccessDone]
    exact State.portDone_eq port inside eye (by rw [kind]) (by rw [dead]; rfl)
  · dsimp only [exec, execLitIntervalStart]
    rw [still]
    exact State.fire_eq (by simp [lit, dark, due, c]) rfl
  · dsimp only [exec, execLitIntervalEnd]
    rw [still]
    exact State.fire_eq (by simp [lit, due, c]) rfl

end

section
/-! SUPPORT. The protected ranges and the watched words (R20 to R24, R81), and the copy jobs (R125 to R133). -/

namespace Sys2Proof.Machine

/-! ### Ranges -/

theorem inRange_iff (base size a : Nat) : inRange base size a = true ↔ base ≤ a ∧ a < base + size := by
  simp [inRange]

/-- A byte of a refused piece of the Anchor Block (R21). -/
theorem anchorRefused_any (a : Nat) : (anchorRefused.any fun p => inRange p.1 p.2 a) = true ↔
    ∃ p ∈ anchorRefused, p.1 ≤ a ∧ a < p.1 + p.2 := by
  simp only [List.any_eq_true, inRange_iff]

theorem slotRefuses_iff (size base : Nat) (x : SlotState) (a : Nat) : slotRefuses size base x a = true ↔
    (base + 32 ≤ a ∧ a < base + 64) ∨ (x ≠ .free ∧ base ≤ a ∧ a < base + size) := by
  simp only [slotRefuses, Bool.or_eq_true, Bool.and_eq_true, bne_iff_ne, inRange_iff, Nat.add_assoc]

theorem any_allSlots {p : Fin 4 → Bool} : allSlots.any p = true ↔ ∃ k, p k = true := by
  rw [List.any_eq_true]
  exact ⟨fun ⟨k, _, holds⟩ => ⟨k, holds⟩, fun ⟨k, holds⟩ => ⟨k, mem_allSlots k, holds⟩⟩

/-! ### The watched words (R24) -/

theorem State.watchedWords_none {s : State} (h : s.hku.layout = none) : s.watchedWords =
    [(.commandProducer, 0x140), (.noticeConsumer, 0x14C), (.poseHold, 0x150), (.playbackProducer, 0x158),
      (.captureConsumer, 0x164), (.cueRequest, 0x168)] := by
  simp [State.watchedWords, h]

theorem State.watchedWords_some {s : State} {l : Layout} (h : s.hku.layout = some l) : s.watchedWords =
    [(.commandProducer, 0x140), (.noticeConsumer, 0x14C), (.poseHold, 0x150), (.playbackProducer, 0x158),
      (.captureConsumer, 0x164), (.cueRequest, 0x168)] ++
      [0, 1, 2, 3].map fun k : Fin 4 => (.submit k, l.frameArea.base + k.val * l.frameArea.size + 28) := by
  simp only [State.watchedWords, h]
  rfl

theorem State.mem_covered (s : State) (addr len : Nat) (w : Watched × Nat) : w ∈ s.covered addr len ↔
    w ∈ s.watchedWords ∧ addr ≤ w.2 ∧ w.2 + 4 ≤ addr + len ∧ s.partOwned w.2 = false := by
  simp [State.covered, and_assoc]

/-! ### The checks of a job (R125 to R127) -/

/-- The numbers of one side of a job are in range (R125). -/
def jobRowOk (base len rows stride : Nat) : Prop :=
  base % 4 = 0 ∧ len % 4 = 0 ∧ stride % 4 = 0 ∧ 4 ≤ len ∧ len ≤ 65536 ∧ 1 ≤ rows ∧ rows ≤ 4096 ∧ len ≤ stride ∧
    base + ((rows - 1) * stride + len) ≤ 0x20000000

theorem Job.paramsOk_fill {j : Job} (kind : j.kind = .fill) : j.paramsOk = true ↔ jobRowOk j.dest j.rowBytes j.rows j.destStride := by
  simp only [Job.paramsOk, kind, Bool.and_eq_true, beq_iff_eq, decide_eq_true_eq, and_assoc]
  rfl

theorem Job.paramsOk_copy {j : Job} (kind : j.kind = .copy) : j.paramsOk = true ↔
    jobRowOk j.dest j.rowBytes j.rows j.destStride ∧ jobRowOk j.source j.rowBytes j.rows j.sourceStride := by
  have both : j.paramsOk = true ↔ jobRowOk j.dest j.rowBytes j.rows j.destStride ∧ j.source % 4 = 0 ∧ j.sourceStride % 4 = 0 ∧
      j.rowBytes ≤ j.sourceStride ∧ j.source + ((j.rows - 1) * j.sourceStride + j.rowBytes) ≤ 0x20000000 := by
    simp only [Job.paramsOk, kind, Bool.and_eq_true, beq_iff_eq, decide_eq_true_eq, jobRowOk, and_assoc]
    rfl
  rw [both]
  unfold jobRowOk
  tauto

theorem State.targetBusy_iff (s : State) (j : Job) : s.targetBusy j = true ↔ ∃ k ∈ s.destSlots j, s.fcu.slots[k].state ≠ .free := by
  simp only [State.targetBusy, List.any_eq_true, bne_iff_ne]

theorem State.mem_destSlots {s : State} {l : Layout} (h : s.hku.layout = some l) (j : Job) (k : Fin 4) : k ∈ s.destSlots j ↔
    ∃ a, (j.dest ≤ a ∧ a < j.dest + ((j.rows - 1) * j.destStride + j.rowBytes)) ∧
      l.slotBase k ≤ a ∧ a < l.slotBase k + s.hku.settings.slotSize := by
  simp only [State.destSlots, h, List.mem_filter, mem_allSlots, true_and, sharesByte_iff]
  rfl

theorem State.destSlots_ascending (s : State) (j : Job) : (s.destSlots j).Pairwise (· < ·) := by
  have ascending : allSlots.Pairwise (· < ·) := by decide
  unfold State.destSlots
  split
  · exact .nil
  · exact ascending.filter _

/-- A job that is taken raises the count of each slot it marks (R83, R127). -/
theorem State.queueJob_slots (s : State) (j : Job) (k : Fin 4) : (s.queueJob j).fcu.slots[k] =
    { s.fcu.slots[k] with copyPending := s.fcu.slots[k].copyPending + (if k ∈ s.destSlots j then 1 else 0) } := by
  rw [State.queueJob_fcu, Fcu.updates_slots _ _ (s.destSlots_nodup j)]
  split <;> rfl

theorem State.queueJob_eq (s : State) (j : Job) : s.queueJob j = { s with
    fcu.slots := (s.queueJob j).fcu.slots
    ce := { s.ce with
      jobs := s.ce.jobs ++ [{ j with marks := s.destSlots j }]
      progress := if s.ce.jobs = [] then ⟨0, 0, none, 0⟩ else s.ce.progress } } := by
  have fcu : (s.queueJob j).fcu = { s.fcu with slots := (s.queueJob j).fcu.slots } := by rw [State.queueJob_fcu, Fcu.updates_eq]
  rw [← fcu]
  simp only [State.queueJob, List.isEmpty_iff]
  rfl

/-- The checks of a COPY or FILL record, in their order (R125 to R127). -/
theorem State.takeJob_cases {t : Time} {s : State} {r : Record} {job : Record → Job} {j : Job} {ok : Prop} {c : Instr}
    {isCode : Half → Bool} (is : job r = j)
    (before : s.granted = s ∨ t = s.now) (taking : s.hku.work = .taking r) (code : isCode r.code = true)
    (run : exec c s = s.takeRecord t isCode fun r s => s.takeJob r (job r)) (checks : j.paramsOk = true ↔ ok) :
    (¬ ok → exec c s = .next ({ s with now := t }.refuse r .badParam).settle) ∧
    (ok → 4 ≤ s.ce.jobs.length → exec c s = .next ({ s with now := t }.refuse r .queueFull).settle) ∧
    (ok → s.ce.jobs.length < 4 → s.destProtected j = true →
      exec c s = .next ({ s with now := t }.refuse r .protectedRange).settle) ∧
    (ok → s.ce.jobs.length < 4 → s.destProtected j = false → (∃ k ∈ s.destSlots j, s.fcu.slots[k].state ≠ .free) →
      exec c s = .next ({ s with now := t }.refuse r .targetBusy).settle) ∧
    (ok → s.ce.jobs.length < 4 → s.destProtected j = false → (∀ k ∈ s.destSlots j, s.fcu.slots[k].state = .free) →
      exec c s = .next ({ s with now := t }.queueJob j).finishTaking.settle) := by
  have effect {u : State} (makes : { s with now := t }.takeJob r j = u) : exec c s = .next u.settle :=
    run.trans (State.takeRecord_eq before taking code (is.symm ▸ makes))
  refine ⟨fun bad => effect ?_, fun ok full => effect ?_, fun ok room owned => effect ?_, fun ok room open_ busy => effect ?_,
    fun ok room open_ free => effect ?_⟩
  · simp [State.takeJob, checks, bad]
  · simp [State.takeJob, checks.mpr ok, Config.jobLimit, full]
  · have protected_ : { s with now := t }.destProtected j = true := owned
    simp [State.takeJob, checks.mpr ok, Config.jobLimit, Nat.not_le.mpr room, protected_]
  · have protected_ : { s with now := t }.destProtected j = false := open_
    have taken : { s with now := t }.targetBusy j = true := (State.targetBusy_iff _ j).mpr busy
    simp [State.takeJob, checks.mpr ok, Config.jobLimit, Nat.not_le.mpr room, protected_, taken]
  · have protected_ : { s with now := t }.destProtected j = false := open_
    have idle : { s with now := t }.targetBusy j = false := by
      rw [← Bool.not_eq_true, State.targetBusy_iff]
      rintro ⟨k, mem, busy⟩
      exact busy (free k mem)
    simp [State.takeJob, checks.mpr ok, Config.jobLimit, Nat.not_le.mpr room, protected_, idle]

end Sys2Proof.Machine

open Sys2Proof Sys2Proof.Machine

/-- Settles O37: by the checks of a job in their order, and by the slots its destination overlaps. -/
theorem jobsTaken : Obligations.JobsTaken := by
  unfold Obligations.JobsTaken
  refine ⟨fun s j => ⟨s.destSlots_ascending j, fun none_ => ?_, fun l layout k => State.mem_destSlots layout j k⟩,
    fun t s r before taking => ⟨fun code => ?_, fun code => ?_⟩⟩
  · simp only [State.destSlots, none_]
  · have job : copyJob r = { copyJob r with descending := decide (r.param 4 < r.param 8 ∧
        r.param 8 < r.param 4 + ((r.param 16 - 1) * r.param 20 + r.param 12)) } := by
      simp only [copyJob, Bool.decide_and]
      rfl
    obtain ⟨bad, full, owned, busy, free⟩ := State.takeJob_cases (c := .copy t) (isCode := (· == 0x0050)) job before taking
      (by simp [code]) rfl (Job.paramsOk_copy rfl)
    refine ⟨bad, full, owned, busy, fun ok room open_ idle => ⟨({ s with now := t }.queueJob _).fcu.slots, ?_,
      fun k => State.queueJob_slots { s with now := t } _ k⟩⟩
    rw [free ok room open_ idle, State.queueJob_eq]
    rfl
  · obtain ⟨bad, full, owned, busy, free⟩ := State.takeJob_cases (j := fillJob r) (c := .fill t) (isCode := (· == 0x0051)) rfl before
      taking (by simp [code]) rfl (Job.paramsOk_fill rfl)
    refine ⟨bad, full, owned, busy, fun ok room open_ idle => ⟨({ s with now := t }.queueJob (fillJob r)).fcu.slots, ?_,
      fun k => State.queueJob_slots { s with now := t } (fillJob r) k⟩⟩
    rw [free ok room open_ idle, State.queueJob_eq]
    rfl

/-- Settles O38: range by range. -/
theorem protectedDestination : Obligations.ProtectedDestination := by
  unfold Obligations.ProtectedDestination
  refine ⟨fun s a => ?_, fun s => ⟨State.watchedWords_none, fun l => State.watchedWords_some, fun addr len => List.filter_sublist,
    s.mem_covered, fun low => ?_⟩, fun s j => ?_⟩
  · rw [State.partOwned, Bool.or_eq_true, anchorRefused_any]
    refine or_congr Iff.rfl ?_
    cases layout : s.hku.layout with
    | none => simp
    | some l =>
      simp only [Bool.or_eq_true, inRange_iff, any_allSlots, slotRefuses_iff, or_assoc, Nat.mul_comm _ 32, Nat.mul_comm _ 208,
        Option.some.injEq, exists_eq_left', exists_or]
      rfl
  · cases layout : s.hku.layout with
    | none =>
      rw [State.watchedWords_none layout]
      decide
    | some l =>
      rw [State.watchedWords_some layout]
      obtain ⟨base, size⟩ := low l layout
      refine List.pairwise_append.mpr ⟨by decide, ?_, fun v early w late => ?_⟩
      · simp [List.pairwise_cons]
        omega
      · simp at early late
        rcases late with rfl | rfl | rfl | rfl <;> rcases early with rfl | rfl | rfl | rfl | rfl | rfl <;> simp <;> omega
  · rw [State.destProtected, Bool.or_eq_true, List.any_eq_true]
    cases layout : s.hku.layout with
    | none =>
      simp only [sharesByte_iff]
      constructor
      · rintro (⟨p, mem, a, inside, hit⟩ | never)
        · exact ⟨a, inside, .inl ⟨p, mem, hit⟩⟩
        · cases never
      · rintro ⟨a, inside, ⟨p, mem, hit⟩ | ⟨l, none_, _⟩⟩
        · exact .inl ⟨p, mem, a, inside, hit⟩
        · cases none_
    | some l =>
      simp only [Bool.or_eq_true, any_allSlots, sharesByte_iff, Nat.mul_comm _ 32, Nat.mul_comm _ 208]
      constructor
      · rintro (⟨p, mem, a, inside, hit⟩ | (⟨a, inside, hit⟩ | ⟨a, inside, hit⟩) | ⟨k, a, inside, hit⟩)
        · exact ⟨a, inside, .inl ⟨p, mem, hit⟩⟩
        · exact ⟨a, inside, .inr ⟨l, rfl, .inl hit⟩⟩
        · exact ⟨a, inside, .inr ⟨l, rfl, .inr (.inl hit)⟩⟩
        · exact ⟨a, inside, .inr ⟨l, rfl, .inr (.inr ⟨k, hit⟩)⟩⟩
      · simp only [Option.some.injEq, exists_eq_left']
        rintro ⟨a, inside, ⟨p, mem, hit⟩ | hit | hit | ⟨k, hit⟩⟩
        · exact .inl ⟨p, mem, a, inside, hit⟩
        · exact .inr (.inl (.inl ⟨a, inside, hit⟩))
        · exact .inr (.inl (.inr ⟨a, inside, hit⟩))
        · exact .inr (.inr ⟨k, a, inside, hit⟩)

end

section
/-! SUPPORT. The end of a copy job and its segments (R83, R128 to R133). -/

namespace Sys2Proof.Machine

/-! ### The job an ABORT_COPY finds -/

/-- The oldest job with a property, with the number of jobs ahead of it. -/
theorem zipIdx_find?_some {p : Job → Bool} {ahead behind : List Job} {j : Job} (others : ∀ x ∈ ahead, p x = false) (holds : p j = true) (n : Nat) :
    ((ahead ++ j :: behind).zipIdx n).find? (fun x => p x.1) = some (j, n + ahead.length) := by
  induction ahead generalizing n with
  | nil => simp [holds]
  | cons x ahead ih =>
    have first : p x = false := others x List.mem_cons_self
    have rest := ih (fun y mem => others y (List.mem_cons_of_mem _ mem)) (n + 1)
    rw [List.cons_append, List.zipIdx_cons, List.find?_cons_of_neg (by simp [first]), rest, List.length_cons]
    congr 2
    omega

theorem zipIdx_find?_none {p : Job → Bool} {jobs : List Job} (others : ∀ x ∈ jobs, p x = false) (n : Nat) :
    (jobs.zipIdx n).find? (fun x => p x.1) = none := by
  rw [List.find?_eq_none]
  intro x mem
  rw [others x.1 (List.fst_mem_of_mem_zipIdx mem)]
  exact Bool.false_ne_true

theorem State.copyInService_iff (s : State) :
    s.copyInService = true ↔ ∃ a, s.port = some a ∧ a.live = true ∧ a.kind.client = .copy := by
  unfold State.copyInService
  cases s.port <;> simp

/-! ### A release (R83) -/

theorem Fcu.release_ready {f : Fcu} {k : Fin 4} (waiting : f.slots[k].state = .waiting) (last : f.slots[k].copyPending - 1 = 0) :
    f.release k = { f with
      slots := f.slots.set k { f.slots[k] with
        copyPending := f.slots[k].copyPending - 1, state := .queued, headerDue := true }
      queue := f.queue ++ [k] } := by
  unfold Fcu.release
  exact if_pos ⟨waiting, last⟩

theorem Fcu.release_other {f : Fcu} {k : Fin 4} (other : f.slots[k].state ≠ .waiting ∨ f.slots[k].copyPending - 1 ≠ 0) :
    f.release k = { f with slots := f.slots.set k { f.slots[k] with copyPending := f.slots[k].copyPending - 1 } } := by
  unfold Fcu.release
  exact if_neg fun ⟨waiting, last⟩ => other.elim (fun no => no waiting) fun no => no last

/-! ### Segments -/

section
variable {s : State} {j : Job} {rest : List Job} (jobs : s.ce.jobs = j :: rest)
include jobs

theorem State.grantCopy_go (runs : s.ce.paused = false) (wanted : j.aborting = false) :
    s.grantCopy = { s with port := some (j.nextAccess s.ce.progress) } := by
  simp [State.grantCopy, jobs, runs, wanted]

theorem State.grantCopy_stay (stays : s.ce.paused = true ∨ j.aborting = true) : s.grantCopy = s := by
  rcases stays with paused | aborting
  · simp [State.grantCopy, jobs, paused]
  · simp [State.grantCopy, jobs, aborting]

theorem State.endRunning_eq (o : JobOutcome) (n : Nat) : s.endRunning j o n =
    { { s with fcu := j.marks.foldl Fcu.release s.fcu }.post (.copyDone j.kind o j.tag n) with
      ce := { s.ce with jobs := rest, progress := ⟨0, 0, none, 0⟩ } } := by
  simp only [State.endRunning, jobs, List.tail_cons]
  rfl

end

end Sys2Proof.Machine

open Sys2Proof Sys2Proof.Machine

/-- Settles O39: by the place of the job in the queue and the access in service. -/
theorem jobAborted : Obligations.JobAborted := by
  unfold Obligations.JobAborted
  intro t s r before taking code tag inService closed
  let fits (j : Job) : Bool := j.tag == tag && !j.aborting
  have misfit (j : Job) : fits j = false ↔ j.tag ≠ tag ∨ j.aborting = true := by
    simp only [fits, Bool.and_eq_false_iff, beq_eq_false_iff_ne, Bool.not_eq_false']
  have effect {u : State} (makes : (match s.ce.jobs.zipIdx.find? fun p => fits p.1 with
      | some (j, i) => ({ s with now := t }.abortJob i j).finishTaking
      | none => { s with now := t }.refuse r .noSuchJob) = u) : exec (.abortCopy t) s = .next u.settle := by
    dsimp only [exec, execAbortCopy]
    exact State.takeRecord_eq before taking (by simp [code]) makes
  refine ⟨fun none_ => effect ?_, fun ahead j behind jobs others tagged wanted => ?_, fun f k => ⟨Fcu.release_ready, Fcu.release_other⟩⟩
  · rw [zipIdx_find?_none (p := fits) (fun x mem => (misfit x).mpr (none_ x mem))]
  · have found : s.ce.jobs.zipIdx.find? (fun p => fits p.1) = some (j, ahead.length) := by
      rw [jobs, zipIdx_find?_some (p := fits) (fun x mem => (misfit x).mpr (others x mem)) (by simp [fits, tagged, wanted]), Nat.zero_add]
    refine ⟨fun behindOne => effect ?_, fun first serves => effect ?_, fun first idle => effect ?_⟩
    · rw [found]
      have index : ahead.length ≠ 0 := fun e => behindOne (List.length_eq_zero_iff.mp e)
      have removed : s.ce.jobs.eraseIdx ahead.length = ahead ++ behind := by
        rw [jobs, List.eraseIdx_append_of_length_le (le_refl _), Nat.sub_self, List.eraseIdx_cons_zero]
      simp only [State.abortJob, if_pos index, removed]
      rfl
    · subst first
      rw [found]
      have serving : { s with now := t }.copyInService = true := (State.copyInService_iff _).mpr serves
      simp only [State.abortJob, List.length_nil, ne_eq, not_true_eq_false, if_false, serving, if_true, jobs, List.nil_append, List.tail_cons]
    · subst first
      rw [found]
      have serving : ¬ { s with now := t }.copyInService = true := fun serves => idle ((State.copyInService_iff _).mp serves)
      simp only [State.abortJob, List.length_nil, ne_eq, not_true_eq_false, if_false, if_neg serving]
      rw [State.endRunning_eq (rest := behind) (by exact jobs)]
      rfl

/-- Settles O40: by the job at the head of the queue and the access that completes. -/
theorem jobRuns : Obligations.JobRuns := by
  unfold Obligations.JobRuns
  refine ⟨fun t s j rest jobs => ?_, fun t s go none_ => ?_, fun t s a port inside dead => ⟨fun kind => ?_, fun kind => ?_⟩⟩
  · intro p len at_ ended
    have run (u : State) (served : u.ce = s.ce) (o : JobOutcome) (n : Nat) : u.endRunning j o n = ended u o n := by
      rw [State.endRunning_eq (rest := rest) (by rw [served, jobs])]
      simp only [ended, served]
    refine ⟨fun go runs wanted => ⟨fun kind empty => ?_, fun bytes kind held => ?_, fun kind => ?_⟩, fun go stays => ?_,
      fun a port inside live kind => ⟨fun wanted => ?_, fun aborting => ?_⟩,
      fun a n port inside live kind length => ?_⟩
    · dsimp only [exec, execCopyGrant]
      refine State.fire_eq go ?_
      rw [State.grantCopy_go (by exact jobs) (by exact runs) wanted]
      simp only [Job.nextAccess, kind, show s.ce.progress.held = none from empty]
      rfl
    · dsimp only [exec, execCopyGrant]
      refine State.fire_eq go ?_
      rw [State.grantCopy_go (by exact jobs) (by exact runs) wanted]
      simp only [Job.nextAccess, kind, show s.ce.progress.held = some bytes from held]
      rfl
    · dsimp only [exec, execCopyGrant]
      refine State.fire_eq go ?_
      rw [State.grantCopy_go (by exact jobs) (by exact runs) wanted]
      simp only [Job.nextAccess, kind]
      rfl
    · dsimp only [exec, execCopyGrant]
      exact State.fire_eq go (State.grantCopy_stay (by exact jobs) (by exact stays))
    · dsimp only [exec, execCopyReadDone]
      refine State.portDone_eq port inside () (by rw [kind]) ?_
      simp only [live, State.served_ce, jobs, wanted, Bool.false_eq_true, if_false]
      rfl
    · dsimp only [exec, execCopyReadDone]
      refine State.portDone_eq port inside () (by rw [kind]) ?_
      simp only [live, State.served_ce, jobs, aborting, if_true]
      exact run _ (State.served_ce ..) ..
    · intro within after
      have written : (a.fetch s.mem).length = n := by rw [Access.fetch_length, length]
      have advanced : j.advance s.ce.progress n = after := rfl
      have effect {u : State} (makes : (s.served t a).copyWritten j n = u) :
          exec (.copyWriteDone t) s = .next u.settle := by
        dsimp only [exec, execCopyWriteDone]
        refine State.portDone_eq port inside () (by rw [kind]) ?_
        simp only [live, State.served_ce, jobs, written]
        exact makes
      have count : after.written = p.written + n := by simp only [after]; split <;> rfl
      have rows : after.rowsDone = if within then p.rowsDone else p.rowsDone + 1 := by
        simp only [after, within]; split <;> rfl
      refine ⟨fun wanted more lines => effect ?_, fun wanted beyond last => effect ?_, fun aborting => effect ?_⟩
      · have unfinished : after.rowsDone ≠ j.rows := by
          rw [rows]
          split
          · exact Nat.ne_of_lt (more ‹_›)
          · exact Nat.ne_of_lt (lines ‹_›)
        simp only [State.copyWritten, State.served_ce, advanced, wanted, Bool.false_eq_true, if_false, if_neg unfinished]
      · have finished : after.rowsDone = j.rows := by rw [rows, if_neg beyond, last]
        simp only [State.copyWritten, State.served_ce, advanced, wanted, Bool.false_eq_true, if_false, if_pos finished, count]
        exact run _ (State.served_ce ..) ..
      · simp only [State.copyWritten, State.served_ce, advanced, aborting, if_true, count]
        exact run _ (State.served_ce ..) ..
  · dsimp only [exec, execCopyGrant]
    exact State.fire_eq go (by simp [State.grantCopy, none_])
  · dsimp only [exec, execCopyReadDone]
    exact State.portDone_eq port inside () (by rw [kind]) (by simp only [dead])
  · dsimp only [exec, execCopyWriteDone]
    exact State.portDone_eq port inside () (by rw [kind]) (by simp only [dead])

end

section
/-! SUPPORT. The audio commands, the audio client and the codec (R136 to R155). -/

namespace Sys2Proof.Machine

/-! ### The cue table entry (R148) -/

section
variable (index : Fin 4) (mode : CueMode) (b : List Byte)

variable {b}

theorem cueOf_length (bad : fieldAt b 4 4 = 0 ∨ 480000 < fieldAt b 4 4) : cueOf index mode b = .inl .length := if_pos bad

variable (few : 1 ≤ fieldAt b 4 4) (many : fieldAt b 4 4 ≤ 480000)
include few many

theorem cueOf_align (bad : fieldAt b 0 4 % 4 ≠ 0) : cueOf index mode b = .inl .align := by
  rw [cueOf, if_neg (by omega), if_pos bad]

variable (aligned : fieldAt b 0 4 % 4 = 0)
include aligned

theorem cueOf_range (bad : 0x20000000 < fieldAt b 0 4 + fieldAt b 4 4 * cueFrameBytes (fieldAt b 8 1 % 2 == 1)) :
    cueOf index mode b = .inl .range := by
  rw [cueOf, if_neg (by omega), if_neg (not_not_intro aligned)]
  exact if_pos bad

theorem cueOf_sound (inside : fieldAt b 0 4 + fieldAt b 4 4 * cueFrameBytes (fieldAt b 8 1 % 2 == 1) ≤ 0x20000000) :
    cueOf index mode b = .inr ⟨index, mode, fieldAt b 0 4, fieldAt b 4 4, fieldAt b 8 1 % 2 == 1, 0⟩ := by
  rw [cueOf, if_neg (by omega), if_neg (not_not_intro aligned)]
  exact if_neg (Nat.not_lt.mpr inside)

end

end Sys2Proof.Machine

open Sys2Proof Sys2Proof.Machine

/-- Settles O41: by the first check that refuses, in their order. -/
theorem audioCommands : Obligations.AudioCommands := by
  unfold Obligations.AudioCommands
  intro t s r before taking p refused
  refine ⟨fun code => ?_, fun code => ?_, fun code => ?_, fun code => ?_, fun code => ?_⟩
  · intro ok
    have checks : (decide (1 ≤ r.param 4) && decide (r.param 4 ≤ 64) && decide (r.param 8 ≤ 32768)) = true ↔ ok := by
      show _ ↔ 1 ≤ r.param 4 ∧ r.param 4 ≤ 64 ∧ r.param 8 ≤ 32768
      simp [and_assoc]
    dsimp only [exec, execPlaybackStart]
    refine ⟨fun bad => ?_, fun ok missing => ?_, fun ok present runs => ?_, fun l ok layout stopped => ?_⟩ <;>
      refine State.takeRecord_eq before taking (by simp [code]) ?_
    · simp only [Bool.eq_false_iff.mpr fun holds => bad (checks.mp holds), Bool.not_false, if_true]
    · simp [checks.mpr ok, missing]
    · simp [checks.mpr ok, present, runs]
    · simp only [checks.mpr ok, layout, stopped, Option.isNone_some, Bool.not_true, Bool.false_eq_true, if_false, ne_eq,
        not_true_eq_false]
      have length : { s with now := t }.playbackLength = l.playback.size := by simp [State.playbackLength, layout]
      rw [State.startPlayback, length]
      rfl
  · dsimp only [exec, execPlaybackStop]
    exact ⟨fun stopped => State.takeRecord_eq before taking (by simp [code]) (if_pos stopped),
      fun runs => State.takeRecord_eq before taking (by simp [code]) (if_neg runs)⟩
  · dsimp only [exec, execSetVolume]
    exact ⟨fun above => State.takeRecord_eq before taking (by simp [code]) (if_neg (Nat.not_le.mpr above)),
      fun within => State.takeRecord_eq before taking (by simp [code]) (if_pos within)⟩
  · dsimp only [exec, execCaptureStart]
    refine ⟨fun missing => ?_, fun present runs => ?_, fun present stopped => ?_⟩ <;>
      refine State.takeRecord_eq before taking (by simp [code]) ?_
    · simp [missing]
    · simp [present, runs]
    · simp [present, stopped]
  · dsimp only [exec, execCaptureStop]
    refine ⟨fun stopped => ?_, fun runs => State.takeRecord_eq before taking (by simp [code]) (if_pos runs)⟩
    exact State.takeRecord_eq before taking (by simp [code]) (if_neg (by simp [stopped]))

/-- Settles O43: by the access granted and the access that completes. -/
theorem audioClientServed : Obligations.AudioClientServed := by
  unfold Obligations.AudioClientServed
  refine fun t s => ⟨fun a rest port scan waits => ?_, fun x late stopping work port inside kind => ?_⟩
  · dsimp only [exec, execAudioGrant]
    refine State.fire_eq (by simp [State.audioMayGo, port, scan, waits]) ?_
    simp only [State.grantAudio, waits]
    obtain ⟨work, late, stopping⟩ := a
    cases work <;> rfl
  · refine ⟨fun addr frames is => ?_, fun addr frames mono is => ?_, fun is => ?_, fun addr data sequence position length is => ?_,
      fun index mode is dead => ?_, fun index mode is live => ?_⟩
    · dsimp only [exec, execAudioAccessDone]
      refine State.portDone_eq port inside ⟨work, late, stopping⟩ (by rw [kind, is]) ?_
      rw [is]
      rfl
    · dsimp only [exec, execAudioAccessDone]
      refine State.portDone_eq port inside ⟨work, late, stopping⟩ (by rw [kind, is]) ?_
      rw [is]
      rfl
    · dsimp only [exec, execAudioAccessDone]
      rcases is with is | is <;>
        · refine State.portDone_eq port inside ⟨work, late, stopping⟩ (by rw [kind, is]) ?_
          rw [is]
          cases late <;> rfl
    · dsimp only [exec, execCaptureRecordWriteDone]
      exact State.portDone_eq port inside (sequence, position, length) (by rw [kind, is]) rfl
    · dsimp only [exec, execCueEntryRead]
      exact State.portDone_eq port inside (index, mode, late, stopping) (by rw [kind, is]) (by rw [dead]; rfl)
    · intro addr frames mono size read
      have effect {u : State} (makes : (match cueOf index mode (x.fetch s.mem) with
          | .inl f => read.post (.cueRefused index mode f)
          | .inr c => read.startCue c late stopping) = u) : exec (.cueEntryRead t) s = .next u.settle := by
        dsimp only [exec, execCueEntryRead]
        refine State.portDone_eq port inside (index, mode, late, stopping) (by rw [kind, is]) ?_
        rw [live]
        exact makes
      refine ⟨fun bad => effect ?_, fun few many bad => effect ?_, fun few many aligned bad => effect ?_,
        fun few many aligned inside_ => effect ?_⟩
      · rw [cueOf_length index mode bad]
      · rw [cueOf_align index mode few many bad]
      · rw [cueOf_range index mode few many aligned bad]
      · rw [cueOf_sound index mode few many aligned inside_]
        simp only [State.startCue, Cue.advance, Cue.nextFrames, Cue.nextRead, Config.blockFrames, Nat.zero_mul, Nat.add_zero, Nat.zero_add,
          Nat.sub_zero]
        rfl

/-- Settles O44: by the boot state and the frame of the block. -/
theorem codecFrameSent : Obligations.CodecFrameSent := by
  unfold Obligations.CodecFrameSent
  intro t s mic still
  dsimp only [exec, execCodecFrame]
  rw [still]
  refine ⟨fun booting => ?_, fun ready more => ?_⟩
  · rw [booting]
    exact State.fire_eq rfl rfl
  · rw [ready]
    exact State.fire_eq (decide_eq_true more) rfl

end

section
/-! SUPPORT. The block boundary (R137 to R155): what each of its parts answers, and the boundary as a whole. -/

namespace Sys2Proof.Machine

/-! ### Notices and counters -/

/-- Notices posted one after another. -/
def Hku.posts (h : Hku) (t : Time) (l : List Notice) : Hku := l.foldl (fun h n => h.post t n) h

@[simp] theorem Hku.posts_nil (h : Hku) (t : Time) : h.posts t [] = h := rfl

theorem Hku.posts_append (h : Hku) (t : Time) (l m : List Notice) : h.posts t (l ++ m) = (h.posts t l).posts t m :=
  List.foldl_append

/-- The counters of starved and dropped blocks raised (R145, R155). -/
def Hku.counted (h : Hku) (underruns dropped : Word) : Hku :=
  { h with counters := { h.counters with
    underruns := h.counters.underruns + underruns, droppedBlocks := h.counters.droppedBlocks + dropped } }

theorem Hku.counted_zero (h : Hku) : h.counted 0 0 = h := by simp [Hku.counted]

theorem Hku.counted_counted (h : Hku) (u d u' d' : Word) : (h.counted u d).counted u' d' = h.counted (u + u') (d + d') := by
  simp [Hku.counted, BitVec.add_assoc]

theorem Hku.counted_post (h : Hku) (u d : Word) (t : Time) (n : Notice) : (h.counted u d).post t n = (h.post t n).counted u d := by
  unfold Hku.post
  by_cases room : (h.noticeProducer - h.noticeConsumer).toNat < Config.noticeLimit
  · rw [if_pos room, if_pos (by exact room)]; rfl
  · rw [if_neg room, if_neg (by exact room)]; rfl

theorem Hku.counted_posts (h : Hku) (u d : Word) (t : Time) (l : List Notice) :
    (h.counted u d).posts t l = (h.posts t l).counted u d :=
  List.foldl_hom (Hku.counted · u d) fun h n => h.counted_post u d t n

@[simp] theorem Hku.posts_keeps (h : Hku) (t : Time) (l : List Notice) :
    (h.posts t l).layout = h.layout ∧ (h.posts t l).settings = h.settings := by
  induction l generalizing h with
  | nil => exact ⟨rfl, rfl⟩
  | cons n l ih =>
    obtain ⟨layout, settings⟩ := ih (h.post t n)
    exact ⟨layout.trans (Hku.post_layout ..), settings.trans (Hku.post_settings ..)⟩

/-! ### Playback (R142 to R145) -/

/-- The consumer count after the overrun of R142. -/
def State.caughtUp (s : State) : Word :=
  if s.playbackLength < s.au.available then s.au.producer - BitVec.ofNat 32 s.playbackLength else s.au.consumer

/-- The notice of an overrun (R142). -/
def State.overrunNotices (s : State) : List Notice :=
  if s.playbackLength < s.au.available then
    [.playbackOverrun (BitVec.ofNat 32 (s.au.available - s.playbackLength)) s.caughtUp]
  else []

/-- The frames available after an overrun. -/
def State.framesReady (s : State) : Nat := (s.au.producer - s.caughtUp).toNat

theorem State.settleOverrun_eq (s : State) :
    s.settleOverrun = { s with au.consumer := s.caughtUp, hku := s.hku.posts s.now s.overrunNotices } := by
  unfold State.settleOverrun State.caughtUp State.overrunNotices State.caughtUp
  by_cases far : s.playbackLength < s.au.available
  · simp only [if_pos far]; rfl
  · simp only [if_neg far, Hku.posts_nil]

/-- A starved block is counted and told (R145). -/
theorem State.starve_eq (s : State) : s.starve = { s with
    au.playback := .priming
    hku := (s.hku.counted 1 0).post s.now (.playbackStarved s.au.consumer (BitVec.ofNat 32 s.au.available)) } := by
  have counted : s.hku.counted 1 0 = { s.hku with counters.underruns := s.hku.counters.underruns + 1 } := by simp [Hku.counted]
  rw [counted]
  rfl

/-- What playback answers a boundary with: its state and consumer count, the underruns, the notices and the accesses. -/
structure PlaybackAnswer where
  playback : PlaybackState
  consumer : Word
  underruns : Word
  notices : List Notice
  works : List AudioWork

/-- The reads of a block that is played from the caught-up count (R144). -/
def State.blockReads (s : State) : List AudioWork :=
  playRuns ((s.hku.layout.map fun l => l.playback.base).getD 0) s.playbackLength 3 s.caughtUp.toNat 48

def State.answerPlays (s : State) : PlaybackAnswer :=
  ⟨.playing, s.caughtUp + 48, 0, s.overrunNotices, s.blockReads ++ [.playConsumer]⟩

def State.answerPrimes (s : State) : PlaybackAnswer := ⟨.priming, s.caughtUp, 0, s.overrunNotices, []⟩

def State.answerStarves (s : State) : PlaybackAnswer :=
  ⟨.priming, s.caughtUp, 1, s.overrunNotices ++ [.playbackStarved s.caughtUp (BitVec.ofNat 32 s.framesReady)], []⟩

def State.answerStopped (s : State) : PlaybackAnswer :=
  ⟨.stopped, s.au.producer, 0, [], if s.au.consumer = s.au.producer then [] else [.playConsumer]⟩

/-- The cases of R141 to R145. -/
def State.playbackAnswer (s : State) : PlaybackAnswer :=
  if s.au.playbackStop = true ∨ s.au.playback = .stopped then s.answerStopped
  else if s.au.playback = .priming then
    if s.au.threshold * 48 ≤ s.framesReady then s.answerPlays else s.answerPrimes
  else if 48 ≤ s.framesReady then s.answerPlays else s.answerStarves

/-- A state with playback's answer. -/
def State.played (s : State) (a : PlaybackAnswer) : State :=
  { s with
    au := { s.au with playback := a.playback, playbackStop := false, consumer := a.consumer }
    hku := (s.hku.posts s.now a.notices).counted a.underruns 0 }

/-- A stream that is stopped, or stops, takes over the producer count (R141, R143). -/
theorem State.settleStopped_eq (s : State) (stopped : s.au.playback = .stopped) (stop : s.au.playbackStop = false) :
    (if s.au.consumer = s.au.producer then (s, []) else ({ s with au.consumer := s.au.producer }, [AudioWork.playConsumer])) =
      (s.played s.answerStopped, s.answerStopped.works) := by
  simp only [State.played, State.answerStopped, Hku.posts_nil, Hku.counted_zero, ← stopped, ← stop]
  by_cases same : s.au.consumer = s.au.producer
  · have keep : ({ s with au.consumer := s.au.consumer } : State) = { s with au.consumer := s.au.producer } := by rw [same]
    rw [if_pos same, if_pos same]
    exact congrArg (·, []) keep
  · rw [if_neg same, if_neg same]

/-- A stream that runs (R142 to R145). -/
theorem State.settleRunning_eq (s : State) (stop : s.au.playbackStop = false) (runs : s.au.playback ≠ .stopped) :
    s.settlePlayback = (s.played s.playbackAnswer, s.playbackAnswer.works) := by
  have plays : ({ s.settleOverrun with au.playback := .playing } : State).playBlock =
      (s.played s.answerPlays, s.answerPlays.works) := by
    rw [State.settleOverrun_eq]
    simp only [State.playBlock, State.played, State.answerPlays, State.blockReads, State.playbackLength, Hku.posts_keeps,
      Hku.counted_zero, ← stop]
    rfl
  have ready : s.settleOverrun.au.available = s.framesReady := by rw [State.settleOverrun_eq]; rfl
  have fixed : s.settleOverrun.au.threshold = s.au.threshold := by rw [State.settleOverrun_eq]
  have answer : s.playbackAnswer = if s.au.playback = .priming then
      if s.au.threshold * 48 ≤ s.framesReady then s.answerPlays else s.answerPrimes
    else if 48 ≤ s.framesReady then s.answerPlays else s.answerStarves := if_neg (by simp [stop, runs])
  rw [answer]
  unfold State.settlePlayback
  rw [if_neg (by simp [stop])]
  cases state : s.au.playback with
  | stopped => exact absurd state runs
  | priming =>
    simp only [state]
    show (if s.settleOverrun.au.threshold * 48 ≤ s.settleOverrun.au.available then
      ({ s.settleOverrun with au.playback := .playing } : State).playBlock else (s.settleOverrun, [])) = _
    rw [ready, fixed, plays, if_pos trivial, State.settleOverrun_eq]
    by_cases enough : s.au.threshold * 48 ≤ s.framesReady
    · rw [if_pos enough, if_pos enough]
    · rw [if_neg enough, if_neg enough]
      simp only [State.played, State.answerPrimes, Hku.counted_zero, ← stop, ← state]
  | playing =>
    simp only [state]
    show (if 48 ≤ s.settleOverrun.au.available then s.settleOverrun.playBlock else (s.settleOverrun.starve, [])) = _
    have same : ({ s.settleOverrun with au.playback := .playing } : State) = s.settleOverrun := by
      rw [State.settleOverrun_eq, ← state]
    rw [same] at plays
    rw [ready, plays, if_neg (show ¬ PlaybackState.playing = .priming by decide)]
    by_cases enough : 48 ≤ s.framesReady
    · rw [if_pos enough, if_pos enough]
    · rw [if_neg enough, if_neg enough, State.starve_eq, ready, State.settleOverrun_eq]
      simp only [State.played, State.answerStarves, Hku.posts_append, Hku.counted_post, ← stop]
      rfl

theorem State.settlePlayback_eq (s : State) : s.settlePlayback = (s.played s.playbackAnswer, s.playbackAnswer.works) := by
  by_cases stop : s.au.playbackStop = true
  · have stopped := State.settleStopped_eq { s with au.playbackStop := false, au.playback := .stopped } rfl rfl
    have answer : s.playbackAnswer = s.answerStopped := if_pos (.inl stop)
    rw [answer]
    unfold State.settlePlayback
    rw [if_pos stop]
    exact stopped
  · rw [Bool.not_eq_true] at stop
    by_cases stopped : s.au.playback = .stopped
    · have answer : s.playbackAnswer = s.answerStopped := if_pos (.inr stopped)
      rw [answer, ← State.settleStopped_eq s stopped stop]
      unfold State.settlePlayback
      rw [if_neg (by simp [stop])]
      simp only [stopped]
    · exact s.settleRunning_eq stop stopped

/-! ### The cue (R148, R149) -/

/-- What the cue answers a boundary with. -/
structure CueAnswer where
  cue : Option Cue
  pending : Option (Fin 4 × CueMode)
  starting : Option (Fin 4 × CueMode)
  duck : Bool
  notices : List Notice
  works : List AudioWork

/-- A cue with frames left plays on. -/
def Au.cueGoes (a : Au) (c : Cue) : CueAnswer :=
  ⟨some c.advance, a.pendingCue, a.startingCue, c.mode == .duck, [], [c.nextRead]⟩

/-- A boundary with no cue left: a pending one starts, unless another is starting (log entry 20). -/
def Au.cueRests (a : Au) (notices : List Notice) : CueAnswer :=
  match a.startingCue, a.pendingCue with
  | none, some p => ⟨none, none, some p, a.block.duck, notices, [.cueEntry p.1 p.2]⟩
  | starting, pending => ⟨none, pending, starting, a.block.duck, notices, []⟩

/-- The cases of R148 and R149. -/
def Au.cueAnswer (a : Au) : CueAnswer :=
  match a.cue with
  | some c => if c.played < c.length then a.cueGoes c else a.cueRests [.cueDone c.index c.mode c.length]
  | none => a.cueRests []

/-- A state with the cue's answer. -/
def State.cued (s : State) (a : CueAnswer) : State :=
  { s with
    au := { s.au with cue := a.cue, pendingCue := a.pending, startingCue := a.starting, block.duck := a.duck }
    hku := s.hku.posts s.now a.notices }

/-- The boundary of a state without a cue. -/
theorem State.settleCue_rests (s v : State) (notices : List Notice) (ended : s.endCue = v) (none_ : v.au.cue = none)
    (same : v = { s with au.cue := none, hku := s.hku.posts s.now notices }) :
    s.settleCue = (s.cued (s.au.cueRests notices), (s.au.cueRests notices).works) := by
  unfold State.settleCue
  rw [ended]
  dsimp only
  rw [none_, same]
  cases starting : s.au.startingCue <;> cases pending : s.au.pendingCue <;>
    simp only [State.cued, Au.cueRests, starting, pending]

theorem State.settleCue_eq (s : State) : s.settleCue = (s.cued s.au.cueAnswer, s.au.cueAnswer.works) := by
  cases cue : s.au.cue with
  | none =>
    have answer : s.au.cueAnswer = s.au.cueRests [] := by simp only [Au.cueAnswer, cue]
    have ended : s.endCue = s := by simp only [State.endCue, cue]
    rw [answer]
    exact s.settleCue_rests s [] ended cue (by rw [Hku.posts_nil, ← cue])
  | some c =>
    by_cases more : c.played < c.length
    · have answer : s.au.cueAnswer = s.au.cueGoes c := by simp only [Au.cueAnswer, cue, if_pos more]
      have ended : s.endCue = s := by simp only [State.endCue, cue, if_pos more]
      rw [answer, State.settleCue, ended]
      simp only [cue]
      rfl
    · have answer : s.au.cueAnswer = s.au.cueRests [.cueDone c.index c.mode c.length] := by
        simp only [Au.cueAnswer, cue, if_neg more]
      rw [answer]
      exact s.settleCue_rests _ _ (by simp only [State.endCue, cue, if_neg more]; rfl) rfl rfl

/-! ### Capture (R153 to R155) -/

/-- What capture answers a boundary with. -/
structure CaptureAnswer where
  producer : Word
  sequence : Word
  overflow : Bool
  dropped : Word
  notices : List Notice
  works : List AudioWork

def Au.captureRests (a : Au) : CaptureAnswer := ⟨a.captureProducer, a.captureSeq, a.overflow, 0, [], []⟩

/-- A complete block is recorded, or dropped (R155). -/
def State.captureBlock (s : State) (g : Gathering) : CaptureAnswer :=
  let length := s.captureLength.getD 0
  let position := s.au.captureProducer.toNat % length
  if (s.au.captureProducer - s.au.captureConsumer).toNat < length then
    ⟨s.au.captureProducer + 1, s.au.captureSeq + 1, false, 0, [],
      [.captureRecord ((s.hku.layout.map fun l => l.capture.base).getD 0 + 208 * position) (captureBytes s.au.captureSeq g)
        s.au.captureSeq position length, .captureProducer]⟩
  else ⟨s.au.captureProducer, s.au.captureSeq + 1, true, 1, if s.au.overflow then [] else [.captureOverflow s.au.captureSeq], []⟩

def State.captureAnswer (s : State) : CaptureAnswer :=
  match s.au.capturing, s.au.gathering with
  | true, some g => s.captureBlock g
  | _, _ => s.au.captureRests

/-- A state with capture's answer. -/
def State.captured (s : State) (a : CaptureAnswer) : State :=
  { s with
    au := { s.au with
      capturing := s.au.capturing && !s.au.captureStop
      captureStop := !s.au.capturing && s.au.captureStop
      captureProducer := a.producer
      captureSeq := a.sequence
      overflow := a.overflow
      gathering := if s.au.capturing then (if s.au.captureStop then none else some ⟨s.now, []⟩) else s.au.gathering }
    hku := (s.hku.counted 0 a.dropped).posts s.now a.notices }

/-- The block that was in gathering, before the next one begins. -/
theorem State.recordBlock_eq (s : State) (g : Gathering) : s.recordBlock g =
    ({ s with
      au := { s.au with
        captureProducer := (s.captureBlock g).producer, captureSeq := (s.captureBlock g).sequence
        overflow := (s.captureBlock g).overflow }
      hku := (s.hku.counted 0 (s.captureBlock g).dropped).posts s.now (s.captureBlock g).notices }, (s.captureBlock g).works) := by
  unfold State.recordBlock State.captureBlock
  dsimp only
  by_cases room : (s.au.captureProducer - s.au.captureConsumer).toNat < s.captureLength.getD 0
  · simp only [if_pos room, Hku.counted_zero, Hku.posts_nil]
  · simp only [if_neg room]
    cases overflow : s.au.overflow <;> simp [Hku.counted, Hku.posts, State.post]

/-- The block before a boundary, recorded or dropped, before the next one begins. -/
def State.recorded (s : State) : State :=
  { s with
    au := { s.au with
      captureProducer := s.captureAnswer.producer, captureSeq := s.captureAnswer.sequence, overflow := s.captureAnswer.overflow }
    hku := (s.hku.counted 0 s.captureAnswer.dropped).posts s.now s.captureAnswer.notices }

theorem State.settleCapture_eq (s : State) : s.settleCapture = (s.captured s.captureAnswer, s.captureAnswer.works) := by
  by_cases capturing : s.au.capturing = true
  · have whole : s.settleCapture = (if s.recorded.au.captureStop then
          { s.recorded with au.capturing := false, au.captureStop := false, au.gathering := none }
        else { s.recorded with au.gathering := some ⟨s.recorded.now, []⟩ }, s.captureAnswer.works) := by
      unfold State.settleCapture
      rw [if_pos capturing]
      cases gathering : s.au.gathering with
      | none =>
        have answer : s.captureAnswer = s.au.captureRests := by simp only [State.captureAnswer, capturing, gathering]
        have same : s.recorded = s := by simp only [State.recorded, answer, Au.captureRests, Hku.counted_zero, Hku.posts_nil]
        rw [same, answer]
        rfl
      | some g =>
        have answer : s.captureAnswer = s.captureBlock g := by simp only [State.captureAnswer, capturing, gathering]
        have block : s.recordBlock g = (s.recorded, s.captureAnswer.works) := by rw [State.recordBlock_eq, State.recorded, answer]
        dsimp only
        rw [block]
    rw [whole]
    by_cases stop : s.au.captureStop = true
    · have ends : (s.au.capturing && !s.au.captureStop) = false := by simp [stop]
      have stops : (!s.au.capturing && s.au.captureStop) = false := by simp [capturing]
      have kept : s.recorded.au.captureStop = true := stop
      simp only [kept, if_true, State.captured, ends, stops, if_pos capturing, if_pos stop]
      rfl
    · have ends : (s.au.capturing && !s.au.captureStop) = s.au.capturing := by simp [stop]
      have stops : (!s.au.capturing && s.au.captureStop) = s.au.captureStop := by simp [capturing, stop]
      have kept : ¬ s.recorded.au.captureStop = true := stop
      simp only [if_neg kept, State.captured, ends, stops, if_pos capturing, if_neg stop]
      rfl
  · have ends : (s.au.capturing && !s.au.captureStop) = s.au.capturing := by simp [capturing]
    have stops : (!s.au.capturing && s.au.captureStop) = s.au.captureStop := by simp [capturing]
    have gathers : (if s.au.capturing = true then (if s.au.captureStop = true then none else some ⟨s.now, []⟩) else s.au.gathering) =
        s.au.gathering := if_neg capturing
    have answer : s.captureAnswer = s.au.captureRests := by simp only [State.captureAnswer, Bool.eq_false_iff.mpr capturing]
    rw [State.settleCapture, if_neg capturing, answer]
    simp only [State.captured, ends, stops, gathers, Au.captureRests, Hku.counted_zero, Hku.posts_nil]

end Sys2Proof.Machine
end

section
/-! SUPPORT. The block boundary as a whole (R137, R138), the reads of a played block (R144) and the capture record (R154). -/

namespace Sys2Proof.Machine

/-! ### The boundary as a whole -/

/-- The state in which the parts of a boundary answer: the accesses of the block that is over are late (R138). -/
def State.blockBegun (s : State) : State :=
  { s.markLate with
    au.block := ⟨0, [], [], false, s.au.block.gain⟩
    au.nextBoundary := some (s.now + Config.millisecond) }

theorem State.captureAnswer_congr {s u : State} (layout : u.hku.layout = s.hku.layout) (capturing : u.au.capturing = s.au.capturing)
    (gathering : u.au.gathering = s.au.gathering) (producer : u.au.captureProducer = s.au.captureProducer)
    (consumer : u.au.captureConsumer = s.au.captureConsumer) (sequence : u.au.captureSeq = s.au.captureSeq)
    (overflow : u.au.overflow = s.au.overflow) : u.captureAnswer = s.captureAnswer := by
  have block (g : Gathering) : u.captureBlock g = s.captureBlock g := by
    unfold State.captureBlock State.captureLength
    rw [layout, producer, consumer, sequence, overflow]
  have rests : u.au.captureRests = s.au.captureRests := by simp only [Au.captureRests, producer, sequence, overflow]
  unfold State.captureAnswer
  rw [capturing, gathering, rests]
  cases s.au.capturing <;> cases s.au.gathering <;> simp only [block]

/-- The accesses a boundary calls for, in their order (R138). -/
def State.boundaryWorks (s : State) : List AudioWork := s.au.cueAnswer.works ++ s.playbackAnswer.works ++ s.captureAnswer.works

/-- The notices of a boundary, in their order. -/
def State.boundaryNotices (s : State) : List Notice :=
  s.playbackAnswer.notices ++ s.au.cueAnswer.notices ++ s.captureAnswer.notices

/-- The audio unit as a boundary leaves it, before the new accesses join. -/
def State.boundaryAu (s : State) : Au :=
  { s.au with
    playback := s.playbackAnswer.playback
    playbackStop := false
    consumer := s.playbackAnswer.consumer
    cue := s.au.cueAnswer.cue
    pendingCue := s.au.cueAnswer.pending
    startingCue := s.au.cueAnswer.starting
    block := { s.au.block with
      duck := s.au.cueAnswer.duck
      gain := min (s.au.requestedVolume.getD s.au.volume) s.caps.gain }
    volume := s.au.requestedVolume.getD s.au.volume
    requestedVolume := none
    capturing := s.au.capturing && !s.au.captureStop
    captureStop := !s.au.capturing && s.au.captureStop
    captureProducer := s.captureAnswer.producer
    captureSeq := s.captureAnswer.sequence
    overflow := s.captureAnswer.overflow
    gathering := if s.au.capturing then (if s.au.captureStop then none else some ⟨s.now, []⟩) else s.au.gathering }

/-- A boundary as a whole (R137). -/
theorem State.blockBoundary_eq (s : State) : s.blockBoundary = { s.blockBegun with
    au := { s.blockBegun.boundaryAu with waiting := s.blockBegun.au.waiting ++ s.blockBegun.boundaryWorks.map fun w =>
      ⟨w, false, s.au.playbackStop || s.au.captureStop⟩ }
    hku := (s.hku.counted s.blockBegun.playbackAnswer.underruns s.blockBegun.captureAnswer.dropped).posts s.now
      s.blockBegun.boundaryNotices } := by
  let v := s.blockBegun
  let played := v.played v.playbackAnswer
  let cued := played.cued v.au.cueAnswer
  have layout : cued.hku.layout = v.hku.layout := by simp [cued, played, State.cued, State.played, Hku.counted]
  have settings : cued.hku.settings = v.hku.settings := by simp [cued, played, State.cued, State.played, Hku.counted]
  have answer : cued.settleVolume.captureAnswer = v.captureAnswer := State.captureAnswer_congr layout rfl rfl rfl rfl rfl rfl
  have hku : (cued.hku.counted 0 v.captureAnswer.dropped).posts s.now v.captureAnswer.notices =
      (s.hku.counted v.playbackAnswer.underruns v.captureAnswer.dropped).posts s.now v.boundaryNotices := by
    have first : cued.hku = ((s.hku.posts s.now v.playbackAnswer.notices).counted v.playbackAnswer.underruns 0).posts s.now
      v.au.cueAnswer.notices := rfl
    rw [first, State.boundaryNotices, Hku.posts_append, Hku.posts_append, Hku.counted_posts, Hku.counted_posts, Hku.counted_posts,
      Hku.counted_posts, Hku.counted_counted, Hku.counted_posts]
    simp [Hku.counted_posts]
  have whole : s.blockBoundary = { cued.settleVolume.captured cued.settleVolume.captureAnswer with
      au.waiting := v.au.waiting ++ (v.au.cueAnswer.works ++ v.playbackAnswer.works ++ cued.settleVolume.captureAnswer.works).map
        fun w => ⟨w, false, s.au.playbackStop || s.au.captureStop⟩ } := by
    unfold State.blockBoundary
    rw [show ({ s.markLate with au.block := ⟨0, [], [], false, s.au.block.gain⟩, au.nextBoundary := some (s.now + Config.millisecond) } : State) =
      s.blockBegun from rfl]
    simp only [State.settlePlayback_eq, State.settleCue_eq, State.settleCapture_eq]
    rfl
  have caps : cued.caps = v.caps := by
    unfold State.caps
    rw [settings]
    rfl
  have volume : cued.settleVolume = { cued with au := { cued.au with
      volume := v.au.requestedVolume.getD v.au.volume, requestedVolume := none
      block.gain := min (v.au.requestedVolume.getD v.au.volume) v.caps.gain } } := by
    rw [State.settleVolume, caps]
    rfl
  rw [whole, answer, ← hku, volume]
  rfl

/-! ### The reads of a block that is played (R144) -/

/-- The addresses of the frames of a run. -/
def runFrames : AudioWork → List Nat
  | .playRead addr n => (List.range n).map fun i => addr + 4 * i
  | _ => []

/-- The addresses of frames from a count on, in a ring. -/
def ringFrames (base length count left : Nat) : List Nat :=
  (List.range left).map fun i => base + 4 * ((count + i) % 4294967296 % length)

/-- The most runs the frames from a count on are cut into: one, one more for a ring end and one more for the wrap of the count. -/
def runsNeeded (length count left : Nat) : Nat :=
  if left = 0 then 0
  else 1 + (if length - count % length < left then 1 else 0) + (if 4294967296 - count < left then 1 else 0)

/-- The frames of the next run. -/
def runLength (length count left : Nat) : Nat := min left (min (length - count % length) (4294967296 - count))

theorem playRuns_done (base length fuel count : Nat) : playRuns base length fuel count 0 = [] := by
  cases fuel <;> simp [playRuns]

theorem playRuns_succ (base length fuel count left : Nat) (more : left ≠ 0) : playRuns base length (fuel + 1) count left =
    .playRead (base + 4 * (count % length)) (runLength length count left) ::
      playRuns base length fuel ((count + runLength length count left) % 4294967296) (left - runLength length count left) := by
  rw [playRuns, if_neg more]
  rfl

section
variable {length count left : Nat}

theorem runLength_pos (ring : 0 < length) (wrap : count < 4294967296) (more : left ≠ 0) : 0 < runLength length count left := by
  have position := Nat.mod_lt count ring
  unfold runLength
  omega

theorem ringFrames_split (base : Nat) (ring : 0 < length) (wrap : count < 4294967296) : ringFrames base length count left =
    (List.range (runLength length count left)).map (fun i => base + 4 * (count % length) + 4 * i) ++
      ringFrames base length ((count + runLength length count left) % 4294967296) (left - runLength length count left) := by
  have position := Nat.mod_lt count ring
  have within : runLength length count left ≤ left := Nat.min_le_left _ _
  have inRing : runLength length count left ≤ length - count % length := (Nat.min_le_right _ _).trans (Nat.min_le_left _ _)
  have before : runLength length count left ≤ 4294967296 - count := (Nat.min_le_right _ _).trans (Nat.min_le_right _ _)
  generalize runLength length count left = n at within inRing before
  have cut : List.range left = List.range n ++ (List.range (left - n)).map (n + ·) := by rw [← List.range_add, Nat.add_sub_cancel' within]
  unfold ringFrames
  rw [cut, List.map_append, List.map_map]
  congr 1
  · refine List.map_congr_left fun i mem => ?_
    have small := List.mem_range.mp mem
    have place : (count + i) % length = count % length + i := by
      rw [Nat.add_mod, Nat.mod_eq_of_lt (show i < length by omega), Nat.mod_eq_of_lt (by omega)]
    rw [Nat.mod_eq_of_lt (show count + i < 4294967296 by omega), place]
    ring
  · refine List.map_congr_left fun i _ => ?_
    simp only [Function.comp_apply, Nat.mod_add_mod, Nat.add_assoc]

theorem runsNeeded_next (ring : 0 < length) (wrap : count < 4294967296) (fits : left ≤ length) (small : left ≤ 4294967296) (more : left ≠ 0) :
    runsNeeded length ((count + runLength length count left) % 4294967296) (left - runLength length count left) + 1 ≤
      runsNeeded length count left := by
  have position := Nat.mod_lt count ring
  have ends : (count + (length - count % length)) % length = 0 := by
    have parts := Nat.div_add_mod count length
    have whole : count + (length - count % length) = length * (count / length + 1) := by rw [Nat.mul_add, Nat.mul_one]; omega
    rw [whole, Nat.mul_mod_right]
  by_cases last : left ≤ length - count % length ∧ left ≤ 4294967296 - count
  · have whole : runLength length count left = left := by unfold runLength; omega
    rw [whole, Nat.sub_self]
    simp only [runsNeeded, if_true, if_neg more]
    omega
  · by_cases first : length - count % length < 4294967296 - count
    · have run : runLength length count left = length - count % length := by unfold runLength; omega
      have next : (count + (length - count % length)) % 4294967296 = count + (length - count % length) := Nat.mod_eq_of_lt (by omega)
      have cut : length - count % length < left := by omega
      rw [run, next]
      simp only [runsNeeded, ends, if_neg more, if_pos cut, if_neg (show ¬ left - (length - count % length) = 0 by omega),
        if_neg (show ¬ length - 0 < left - (length - count % length) by omega)]
      split <;> split <;> omega
    · have run : runLength length count left = 4294967296 - count := by unfold runLength; omega
      have next : (count + (4294967296 - count)) % 4294967296 = 0 := by
        rw [Nat.add_sub_cancel' (by omega), Nat.mod_self]
      have cut : 4294967296 - count < left := by omega
      rw [run, next, runsNeeded, runsNeeded, Nat.zero_mod, if_neg more, if_pos cut,
        if_neg (show ¬ left - (4294967296 - count) = 0 by omega), if_neg (show ¬ 4294967296 - 0 < left - (4294967296 - count) by omega),
        if_neg (show ¬ length - 0 < left - (4294967296 - count) by omega)]
      split <;> omega

end

/-- A block that needs no more runs than there is fuel is read whole (R144). -/
theorem playRuns_frames (base length : Nat) (ring : 0 < length) (fuel count left : Nat) (wrap : count < 4294967296) (fits : left ≤ length)
    (small : left ≤ 4294967296) (enough : runsNeeded length count left ≤ fuel) :
    (playRuns base length fuel count left).flatMap runFrames = ringFrames base length count left := by
  induction fuel generalizing count left with
  | zero =>
    have none_ : left = 0 := by
      by_contra more
      simp [runsNeeded, more] at enough
    rw [none_, playRuns_done]
    rfl
  | succ fuel ih =>
    by_cases more : left = 0
    · rw [more, playRuns_done]
      rfl
    · have next := runsNeeded_next ring wrap fits small more
      rw [playRuns_succ _ _ _ _ _ more, List.flatMap_cons, ih _ _ (Nat.mod_lt _ (by decide)) (by omega) (by omega) (by omega),
        ringFrames_split base ring wrap]
      rfl

theorem playRuns_length (base length fuel count left : Nat) : (playRuns base length fuel count left).length ≤ fuel := by
  induction fuel generalizing count left with
  | zero => rfl
  | succ fuel ih =>
    by_cases more : left = 0
    · rw [more, playRuns_done]
      exact Nat.zero_le _
    · rw [playRuns_succ _ _ _ _ _ more, List.length_cons]
      exact Nat.succ_le_succ (ih _ _)

theorem mem_playRuns {base length : Nat} (ring : 0 < length) {fuel count left : Nat} (wrap : count < 4294967296) {w : AudioWork}
    (mem : w ∈ playRuns base length fuel count left) : ∃ addr n, w = .playRead addr n ∧ 0 < n := by
  induction fuel generalizing count left with
  | zero => cases mem
  | succ fuel ih =>
    by_cases more : left = 0
    · rw [more, playRuns_done] at mem
      cases mem
    · rw [playRuns_succ _ _ _ _ _ more, List.mem_cons] at mem
      rcases mem with rfl | mem
      · exact ⟨_, _, rfl, runLength_pos ring wrap more⟩
      · exact ih (Nat.mod_lt _ (by decide)) mem

/-- A block that neither the ring end nor the wrap cuts is one run (R144). -/
theorem playRuns_one {base length fuel count left : Nat} (more : left ≠ 0) (inRing : count % length + left ≤ length)
    (before : count + left ≤ 4294967296) :
    playRuns base length (fuel + 1) count left = [.playRead (base + 4 * (count % length)) left] := by
  have whole : runLength length count left = left := by
    unfold runLength
    omega
  rw [playRuns_succ _ _ _ _ _ more, whole, Nat.sub_self, playRuns_done]

/-! ### The capture record (R154) -/

theorem atLimit_iff (v : Half) : atLimit v = true ↔ v.toInt = -32768 ∨ v.toInt = 32767 := by simp [atLimit]

theorem peakFold_spec (l : List Half) (p : Nat) : p ≤ l.foldl (fun p v => max p v.toInt.natAbs) p ∧
    (∀ v ∈ l, v.toInt.natAbs ≤ l.foldl (fun p v => max p v.toInt.natAbs) p) ∧
    (l.foldl (fun p v => max p v.toInt.natAbs) p = p ∨ ∃ v ∈ l, v.toInt.natAbs = l.foldl (fun p v => max p v.toInt.natAbs) p) := by
  induction l generalizing p with
  | nil => exact ⟨le_refl p, nofun, .inl rfl⟩
  | cons v l ih =>
    obtain ⟨above, all, hit⟩ := ih (max p v.toInt.natAbs)
    rw [List.foldl_cons]
    refine ⟨(le_max_left _ _).trans above, fun w mem => ?_, ?_⟩
    · rcases List.mem_cons.mp mem with rfl | mem
      · exact (le_max_right _ _).trans above
      · exact all w mem
    · rcases hit with same | ⟨w, mem, same⟩
      · rcases max_choice p v.toInt.natAbs with first | second
        · exact .inl (same.trans first)
        · exact .inr ⟨v, List.mem_cons_self, second.symm.trans same.symm⟩
      · exact .inr ⟨w, List.mem_cons_of_mem _ mem, same⟩

/-- The peak of a run of samples is the greatest absolute level, and it is met. -/
theorem peakLevel_spec {l : List Half} (some_ : l ≠ []) :
    (∀ v ∈ l, v.toInt.natAbs ≤ peakLevel l) ∧ ∃ v ∈ l, v.toInt.natAbs = peakLevel l := by
  obtain ⟨_, all, hit⟩ := peakFold_spec l 0
  refine ⟨all, hit.elim (fun zero => ?_) id⟩
  obtain ⟨v, mem⟩ := List.exists_mem_of_ne_nil l some_
  have least := all v mem
  exact ⟨v, mem, by rw [peakLevel]; omega⟩

theorem peakLevel_lt {l : List Half} (some_ : l ≠ []) : peakLevel l < 65536 := by
  obtain ⟨_, v, _, hit⟩ := peakLevel_spec some_
  have low := BitVec.le_toInt v
  have high := BitVec.toInt_lt (x := v)
  omega

end Sys2Proof.Machine
end

section
/-! SUPPORT. The block boundary settled: each clause from the answer of its part. -/

namespace Sys2Proof.Machine

/-! ### The bytes of a capture record (R154, section 11.7) -/

theorem frame_bytes_length (f : Sys2Proof.Frame) : (Frame.bytes f).length = 4 := by simp [Frame.bytes]

theorem frame_bytes_left (f : Sys2Proof.Frame) : fieldAt (Frame.bytes f) 0 2 = f.left.toNat % 256 ^ 2 := by
  rw [Frame.bytes, fieldAt_number 2 _ _ 0 2 (by decide), Nat.pow_zero, Nat.div_one]

theorem frame_bytes_right (f : Sys2Proof.Frame) : fieldAt (Frame.bytes f) 2 2 = f.right.toNat % 256 ^ 2 := by
  rw [Frame.bytes, fieldAt_behind 2 _ _ 2 2 (by decide), fieldAt_leBytes]
  simp

/-- The numbers before the frames of a capture record. -/
def captureHead (sequence : Word) (g : Gathering) : List Byte :=
  leBytes 4 sequence.toNat ++ leBytes 4 g.time.toNat ++ leBytes 2 (peakLevel (g.frames.map Frame.left)) ++
    leBytes 2 (peakLevel (g.frames.map Frame.right)) ++ leBytes 4 (flagCode (g.frames.any fun f => atLimit f.left || atLimit f.right))

theorem captureBytes_eq (sequence : Word) (g : Gathering) :
    captureBytes sequence g = captureHead sequence g ++ (g.frames.map Frame.bytes).flatten := rfl

theorem captureHead_length (sequence : Word) (g : Gathering) : (captureHead sequence g).length = 16 := by
  unfold captureHead
  simp only [List.length_append, leBytes_length]

section
variable (sequence : Word) (g : Gathering)

theorem captureBytes_length : (captureBytes sequence g).length = 16 + 4 * g.frames.length := by
  rw [captureBytes_eq, List.length_append, captureHead_length,
    length_flatten_of_length 4 _ (by simp [frame_bytes_length]), List.length_map]

/-- A field before the frames. -/
theorem captureBytes_head (off n : Nat) (fits : off + n ≤ 16) : fieldAt (captureBytes sequence g) off n = fieldAt (captureHead sequence g) off n := by
  rw [captureBytes_eq, fieldAt_append_left _ _ _ _ (by rw [captureHead_length]; exact fits)]

/-- A field of a frame. -/
theorem captureBytes_frame {i : Nat} {f : Sys2Proof.Frame} (at_ : g.frames[i]? = some f) (off n : Nat) (fits : off + n ≤ 4) :
    fieldAt (captureBytes sequence g) (16 + 4 * i + off) n = fieldAt (Frame.bytes f) off n := by
  obtain ⟨inside, here⟩ := List.getElem?_eq_some_iff.mp at_
  have entry := fieldAt_flatten 4 (g.frames.map Frame.bytes) (by simp [frame_bytes_length]) i (by simpa using inside) off n fits
  rw [captureBytes_eq, fieldAt_append_right _ _ _ _ (by rw [captureHead_length]; omega), captureHead_length,
    show 16 + 4 * i + off - 16 = 4 * i + off by omega, entry]
  simp [here]

theorem captureHead_fields : fieldAt (captureHead sequence g) 0 4 = sequence.toNat % 256 ^ 4 ∧
    fieldAt (captureHead sequence g) 4 4 = g.time.toNat % 256 ^ 4 ∧
    fieldAt (captureHead sequence g) 8 2 = peakLevel (g.frames.map Frame.left) % 256 ^ 2 ∧
    fieldAt (captureHead sequence g) 10 2 = peakLevel (g.frames.map Frame.right) % 256 ^ 2 ∧
    fieldAt (captureHead sequence g) 12 4 = flagCode (g.frames.any fun f => atLimit f.left || atLimit f.right) % 256 ^ 4 := by
  unfold captureHead
  simp only [List.append_assoc]
  refine ⟨?_, ?_, ?_, ?_, ?_⟩ <;> simp [fieldAt_number, fieldAt_behind, fieldAt_leBytes]

/-- The record of a complete block (R154). -/
theorem captureBytes_block (full : g.frames.length = 48) : (captureBytes sequence g).length = 208 ∧
    wordAt (captureBytes sequence g) 0 = sequence ∧ wordAt (captureBytes sequence g) 4 = g.time ∧
    fieldAt (captureBytes sequence g) 8 2 = peakLevel (g.frames.map Frame.left) ∧
    fieldAt (captureBytes sequence g) 10 2 = peakLevel (g.frames.map Frame.right) ∧
    fieldAt (captureBytes sequence g) 12 4 = flagCode (g.frames.any fun f => atLimit f.left || atLimit f.right) := by
  obtain ⟨seq, time, left, right, clipped⟩ := captureHead_fields sequence g
  have met (side : Sys2Proof.Frame → Half) : peakLevel (g.frames.map side) % 256 ^ 2 = peakLevel (g.frames.map side) := by
    refine Nat.mod_eq_of_lt (peakLevel_lt fun empty => ?_)
    rw [List.map_eq_nil_iff.mp empty] at full
    exact absurd full (by decide)
  have flag (b : Bool) : flagCode b % 256 ^ 4 = flagCode b := by cases b <;> rfl
  refine ⟨by rw [captureBytes_length, full], wordAt_number ?_, wordAt_number ?_, ?_, ?_, ?_⟩ <;>
    rw [captureBytes_head _ _ _ _ (by decide)]
  · exact seq
  · exact time
  · exact left.trans (met _)
  · exact right.trans (met _)
  · exact clipped.trans (flag _)

/-- The peak of one side of a complete block. -/
theorem peak_side (full : g.frames.length = 48) (side : Sys2Proof.Frame → Half) :
    (∀ f ∈ g.frames, (side f).toInt.natAbs ≤ peakLevel (g.frames.map side)) ∧
      ∃ f ∈ g.frames, (side f).toInt.natAbs = peakLevel (g.frames.map side) := by
  have some_ : g.frames.map side ≠ [] := fun empty => by
    rw [List.map_eq_nil_iff.mp empty] at full
    exact absurd full (by decide)
  obtain ⟨all, v, mem, hit⟩ := peakLevel_spec some_
  obtain ⟨f, inside, rfl⟩ := List.mem_map.mp mem
  exact ⟨fun f mem => all _ (List.mem_map_of_mem mem), f, inside, hit⟩

end

/-! ### The reads of a played block -/

theorem State.blockReads_spec {s : State} {l : Layout} (layout : s.hku.layout = some l) (size : 1024 ≤ l.playback.size) :
    s.blockReads.length ≤ 3 ∧ (∀ w ∈ s.blockReads, ∃ addr n, w = .playRead addr n ∧ 0 < n) ∧
    s.blockReads.flatMap runFrames = (List.range 48).map (fun i =>
      l.playback.base + 4 * ((s.caughtUp + BitVec.ofNat 32 i).toNat % l.playback.size)) ∧
    (s.caughtUp.toNat % l.playback.size + 48 ≤ l.playback.size → s.caughtUp.toNat + 48 ≤ 4294967296 →
      s.blockReads = [.playRead (l.playback.base + 4 * (s.caughtUp.toNat % l.playback.size)) 48]) := by
  have reads : s.blockReads = playRuns l.playback.base l.playback.size 3 s.caughtUp.toNat 48 := by
    simp only [State.blockReads, State.playbackLength, layout, Option.map_some, Option.getD_some]
  have ring : 0 < l.playback.size := by omega
  have few : runsNeeded l.playback.size s.caughtUp.toNat 48 ≤ 3 := by
    unfold runsNeeded
    rw [if_neg (by decide)]
    split <;> split <;> decide
  rw [reads]
  refine ⟨playRuns_length .., fun w => mem_playRuns ring s.caughtUp.isLt, ?_, fun inRing before => playRuns_one (by decide) inRing before⟩
  rw [playRuns_frames _ _ ring _ _ _ s.caughtUp.isLt (by omega) (by decide) few, ringFrames]
  refine List.map_congr_left fun i _ => ?_
  rw [BitVec.toNat_add, BitVec.toNat_ofNat, Nat.add_mod_mod]

/-! ### The boundary of the obligation -/

theorem State.playbackAnswer_stops {s : State} (stops : s.au.playbackStop = true ∨ s.au.playback = .stopped) :
    s.playbackAnswer = s.answerStopped := if_pos stops

theorem State.playbackAnswer_runs {s : State} (runs : ¬ (s.au.playbackStop = true ∨ s.au.playback = .stopped)) : s.playbackAnswer =
    if s.au.playback = .priming then
      if s.au.threshold * 48 ≤ s.framesReady then s.answerPlays else s.answerPrimes
    else if 48 ≤ s.framesReady then s.answerPlays else s.answerStarves := if_neg runs

theorem State.playbackLength_of {s : State} {l : Layout} (layout : s.hku.layout = some l) : s.playbackLength = l.playback.size := by
  rw [State.playbackLength, layout]
  rfl

/-- A boundary with no cue left: a pending cue starts, and otherwise nothing does (R148). -/
theorem Au.cueRests_cases (a : Au) (notices : List Notice) :
    (∀ index mode, a.startingCue = none → a.pendingCue = some (index, mode) →
      a.cueRests notices = ⟨none, none, some (index, mode), a.block.duck, notices, [.cueEntry index mode]⟩) ∧
    ((a.startingCue ≠ none ∨ a.pendingCue = none) →
      a.cueRests notices = ⟨none, a.pendingCue, a.startingCue, a.block.duck, notices, []⟩) := by
  unfold Au.cueRests
  cases a.startingCue with
  | some p => exact ⟨nofun, fun _ => rfl⟩
  | none =>
    cases a.pendingCue with
    | none => exact ⟨nofun, fun _ => rfl⟩
    | some p => exact ⟨by rintro index mode _ ⟨⟩; rfl, fun held => by simp at held⟩

theorem Au.cueRests_keeps (a : Au) (notices : List Notice) :
    (a.cueRests notices).cue = none ∧ (a.cueRests notices).duck = a.block.duck ∧ (a.cueRests notices).notices = notices := by
  unfold Au.cueRests
  cases a.startingCue <;> cases a.pendingCue <;> exact ⟨rfl, rfl, rfl⟩

theorem State.captureAnswer_rests {s : State} (idle : s.au.capturing = false ∨ s.au.gathering = none) :
    s.captureAnswer = s.au.captureRests := by
  unfold State.captureAnswer
  rcases idle with capturing | gathering
  · rw [capturing]
  · rw [gathering]
    cases s.au.capturing <;> rfl

theorem State.captureAnswer_records {s : State} {g : Gathering} (capturing : s.au.capturing = true)
    (gathering : s.au.gathering = some g) : s.captureAnswer = s.captureBlock g := by
  unfold State.captureAnswer
  rw [capturing, gathering]

/-- A complete block is recorded where there is room, and otherwise dropped (R155). -/
theorem State.captureBlock_spec {s : State} {l : Layout} (layout : s.hku.layout = some l) (g : Gathering) :
    let position := s.au.captureProducer.toNat % l.capture.size
    (s.captureBlock g).sequence = s.au.captureSeq + 1 ∧
    ((s.au.captureProducer - s.au.captureConsumer).toNat < l.capture.size →
      s.captureBlock g = ⟨s.au.captureProducer + 1, s.au.captureSeq + 1, false, 0, [],
        [.captureRecord (l.capture.base + 208 * position) (captureBytes s.au.captureSeq g) s.au.captureSeq position l.capture.size,
          .captureProducer]⟩) ∧
    (¬ (s.au.captureProducer - s.au.captureConsumer).toNat < l.capture.size →
      s.captureBlock g = ⟨s.au.captureProducer, s.au.captureSeq + 1, true, 1,
        if s.au.overflow then [] else [.captureOverflow s.au.captureSeq], []⟩) := by
  have length : s.captureLength.getD 0 = l.capture.size := by rw [State.captureLength, layout]; rfl
  have base : (s.hku.layout.map fun l => l.capture.base).getD 0 = l.capture.base := by rw [layout]; rfl
  unfold State.captureBlock
  simp only [length, base]
  refine ⟨?_, fun room => if_pos room, fun room => if_neg room⟩
  split <;> rfl

/-- The gathering block is complete. -/
theorem Au.gathered_of_full {a : Au} (full : ∀ g, a.gathering = some g → g.frames.length = 48) : a.gathered = true := by
  unfold Au.gathered
  cases gathering : a.gathering with
  | none => rfl
  | some g => simp [full g gathering, Config.blockFrames]

end Sys2Proof.Machine

open Sys2Proof Sys2Proof.Machine

/-- Settles O42: the parts of a boundary answer one after another, in the order of R137, and each clause is about one of the answers. -/
theorem blockBoundarySettles : Obligations.BlockBoundarySettles := by
  unfold Obligations.BlockBoundarySettles
  refine ⟨fun t s still due full => ?_, fun q g count => ?_⟩
  · let v : State := { s with now := t }.blockBegun
    refine ⟨{ v.boundaryAu with waiting := v.au.waiting ++ v.boundaryWorks.map fun w => ⟨w, false, s.au.playbackStop || s.au.captureStop⟩ },
      (s.hku.counted v.playbackAnswer.underruns v.captureAnswer.dropped).counters, v.au.cueAnswer.works, v.playbackAnswer.works,
      v.captureAnswer.works, v.playbackAnswer.notices, v.au.cueAnswer.notices, v.captureAnswer.notices, ?_⟩
    intro stops stopping late volume
    have underruns : (s.hku.counted v.playbackAnswer.underruns v.captureAnswer.dropped).counters.underruns =
      s.hku.counters.underruns + v.playbackAnswer.underruns := rfl
    have dropped : (s.hku.counted v.playbackAnswer.underruns v.captureAnswer.dropped).counters.droppedBlocks =
      s.hku.counters.droppedBlocks + v.captureAnswer.dropped := rfl
    refine ⟨?_, rfl, rfl, fun stop => ?_, fun l layout size runs => ?_, fun c cue more => ?_, fun rests => ?_, fun idle => ?_,
      fun l g layout capturing gathering => ?_⟩
    · dsimp only [exec, execBlockBoundary]
      rw [still]
      refine State.fire_eq (by simp [due, Au.gathered_of_full full]) ?_
      rw [State.blockBoundary_eq]
      rfl
    · have answer : v.playbackAnswer = v.answerStopped := State.playbackAnswer_stops stop
      rw [underruns]
      simp only [State.boundaryAu, answer]
      exact ⟨rfl, rfl, rfl, by simp [State.answerStopped], rfl⟩
    · intro length ahead consumer skipped available plays frames
      have long : v.playbackLength = length := State.playbackLength_of layout
      have from_ : v.caughtUp = consumer := by rw [State.caughtUp, long]; rfl
      have told : v.overrunNotices = skipped := by rw [State.overrunNotices, long, from_]; rfl
      have ready : v.framesReady = available := by rw [State.framesReady, from_]; rfl
      have answer : v.playbackAnswer = if s.au.playback = .priming then
          if s.au.threshold * 48 ≤ available then v.answerPlays else v.answerPrimes
        else if 48 ≤ available then v.answerPlays else v.answerStarves := by
        rw [← ready]
        exact State.playbackAnswer_runs runs
      have same : frames = runFrames := by
        funext w
        cases w <;> rfl
      obtain ⟨few, each, whole, one⟩ := State.blockReads_spec (s := v) layout size
      rw [underruns]
      simp only [State.boundaryAu]
      refine ⟨fun plays => ?_, fun priming less => ?_, fun playing less => ?_⟩
      · have answer : v.playbackAnswer = v.answerPlays := by
          rcases plays with ⟨priming, enough⟩ | ⟨playing, enough⟩
          · rw [answer, if_pos priming, if_pos enough]
          · rw [answer, if_neg (by simp [playing]), if_pos enough]
        rw [answer, State.answerPlays, from_, told, same]
        rw [from_] at whole one
        exact ⟨rfl, rfl, rfl, by simp, v.blockReads, rfl, few, each, whole, one⟩
      · rw [answer, if_pos priming, if_neg (by omega), State.answerPrimes, from_, told]
        exact ⟨rfl, rfl, rfl, by simp, rfl⟩
      · rw [answer, if_neg (by simp [playing]), if_neg (by omega), State.answerStarves, from_, told, ready]
        exact ⟨rfl, rfl, rfl, rfl, rfl⟩
    · have answer : v.au.cueAnswer = v.au.cueGoes c := by
        have at_ : v.au.cue = some c := cue
        simp only [Au.cueAnswer, at_, if_pos more]
      simp only [State.boundaryAu, answer]
      exact ⟨rfl, rfl, rfl, rfl, rfl, rfl⟩
    · have answer : v.au.cueAnswer = v.au.cueRests ((s.au.cue.map fun c => Notice.cueDone c.index c.mode c.length).toList) := by
        have at_ : v.au.cue = s.au.cue := rfl
        cases cue : s.au.cue with
        | none => simp only [Au.cueAnswer, at_, cue]; rfl
        | some c => simp only [Au.cueAnswer, at_, cue, if_neg (Nat.not_lt.mpr (rests c cue))]; rfl
      obtain ⟨starts, stays⟩ := Au.cueRests_cases v.au ((s.au.cue.map fun c => Notice.cueDone c.index c.mode c.length).toList)
      obtain ⟨none_, duck, notices⟩ := Au.cueRests_keeps v.au ((s.au.cue.map fun c => Notice.cueDone c.index c.mode c.length).toList)
      simp only [State.boundaryAu, answer]
      refine ⟨none_, duck, fun cue => ?_, fun c cue => ?_, fun index mode idle pending => ?_, fun held => ?_⟩
      · rw [notices, cue]; rfl
      · rw [notices, cue]; rfl
      · rw [starts index mode idle pending]
        exact ⟨rfl, rfl, rfl⟩
      · rw [stays held]
        exact ⟨rfl, rfl, rfl⟩
    · have answer : v.captureAnswer = v.au.captureRests := State.captureAnswer_rests idle
      rw [dropped]
      simp only [State.boundaryAu, answer]
      exact ⟨rfl, rfl, rfl, by simp [Au.captureRests], rfl, rfl⟩
    · have answer : v.captureAnswer = v.captureBlock g := State.captureAnswer_records capturing gathering
      obtain ⟨sequence, recorded, drops⟩ := State.captureBlock_spec (s := v) layout g
      rw [dropped]
      simp only [State.boundaryAu, answer]
      refine ⟨sequence, fun room => ?_, fun room => ?_⟩
      · rw [recorded room]; exact ⟨rfl, rfl, by simp, rfl, rfl⟩
      · rw [drops room]; exact ⟨rfl, rfl, rfl, rfl, rfl⟩
  · obtain ⟨size, seq, time, left, right, clipped⟩ := captureBytes_block q g count
    intro b edge peak
    have clip (f : Sys2Proof.Frame) : (atLimit f.left || atLimit f.right) = true ↔ edge f.left ∨ edge f.right := by
      rw [Bool.or_eq_true, atLimit_iff, atLimit_iff]
    refine ⟨size, seq, time, ?_, ?_, fun ⟨f, mem, hits⟩ => ?_, fun inside => ?_, fun i f at_ => ⟨halfAt_number ?_, halfAt_number ?_⟩⟩
    · rw [left]
      exact peak_side g count _
    · rw [right]
      exact peak_side g count _
    · rw [clipped, List.any_eq_true.mpr ⟨f, mem, (clip f).mpr hits⟩]
      rfl
    · rw [clipped, List.any_eq_false.mpr fun f mem => (inside f mem) ∘ (clip f).mp]
      rfl
    · exact (captureBytes_frame q g at_ 0 2 (by decide)).trans (frame_bytes_left f)
    · rw [show 18 + 4 * i = 16 + 4 * i + 2 by omega]
      exact (captureBytes_frame q g at_ 2 2 (by decide)).trans (frame_bytes_right f)

end

section
/-! SUPPORT. Power (chapter 9): the commands, the voltage test and the window of a sample. -/

namespace Sys2Proof.Machine

/-! ### The commands (R164, R165) -/

theorem State.takeCeiling_above {s : State} {ceiling : Fin 8} (above : s.pu.level ≤ ceiling) :
    s.takeCeiling ceiling = { s with pu.ceiling := ceiling } := if_neg (not_lt.mpr above)

theorem State.takeCeiling_below {s : State} {ceiling : Fin 8} (below : ceiling < s.pu.level) :
    s.takeCeiling ceiling = ({ s with
      pu := { s.pu with ceiling := ceiling, level := ceiling, overCount := 0, underCount := 0 }
      ce.paused := decide (ceiling.val < 2) } : State).post (.powerLevelChanged s.pu.level ceiling .ceiling s.pu.lastAverage) :=
  if_pos below

theorem Record.ceiling_eq {r : Record} {ceiling : Fin 8} (value : ceiling.val = fieldAt r.bytes 4 4) :
    r.param 4 < 8 ∧ Fin.ofNat 8 (r.param 4) = ceiling := by
  have same : r.param 4 = ceiling.val := value.symm
  rw [same]
  exact ⟨ceiling.isLt, Fin.ext (Nat.mod_eq_of_lt ceiling.isLt)⟩

/-! ### The voltage test (R159, R160) -/

/-- A step that changes no more than the power unit, the copy engine's paused flag and the notices. -/
def State.PowerOnly (s u : State) : Prop := u = { s with pu := u.pu, ce.paused := u.ce.paused, hku := u.hku }

theorem State.PowerOnly.trans {s u v : State} (first : s.PowerOnly u) (second : u.PowerOnly v) : s.PowerOnly v := by
  unfold State.PowerOnly at first second
  rw [first] at second
  exact second

section
variable (s : State) (mv ma : Nat)

theorem State.testVoltage_only : s.PowerOnly (s.testVoltage mv ma) := by
  unfold State.testVoltage
  split
  · dsimp only
    split <;> rfl
  · rfl

theorem State.testVoltage_pu : (s.testVoltage mv ma).pu = { s.pu with
    level := if mv < s.hku.settings.undervoltage then 0 else s.pu.level
    overCount := if mv < s.hku.settings.undervoltage then 0 else s.pu.overCount
    underCount := if mv < s.hku.settings.undervoltage then 0 else s.pu.underCount
    hold := if mv < s.hku.settings.undervoltage then 64 else s.pu.hold - 1 } := by
  unfold State.testVoltage
  by_cases low : mv < s.hku.settings.undervoltage
  · simp only [if_pos low]
    split <;> rfl
  · simp only [if_neg low]

theorem State.testVoltage_hku : (s.testVoltage mv ma).hku =
    if mv < s.hku.settings.undervoltage ∧ s.pu.hold < 64 then s.hku.post s.now (.undervoltage s.pu.level mv ma) else s.hku := by
  unfold State.testVoltage
  by_cases low : mv < s.hku.settings.undervoltage
  · by_cases fresh : s.pu.hold < 64
    · simp only [if_pos low, if_pos fresh, if_pos (And.intro low fresh)]
      rfl
    · simp only [if_pos low, if_neg fresh, if_neg (show ¬ (mv < s.hku.settings.undervoltage ∧ s.pu.hold < 64) from (fresh ·.2))]
      rfl
  · simp only [if_neg low, if_neg (show ¬ (mv < s.hku.settings.undervoltage ∧ s.pu.hold < 64) from (low ·.1))]

end

theorem State.stepLevel_pu (s : State) (level : Fin 8) (cause : LevelCause) :
    (s.stepLevel level cause).pu = { s.pu with overCount := 0, underCount := 0, level := level } := rfl

theorem State.stepLevel_hku (s : State) (level : Fin 8) (cause : LevelCause) :
    (s.stepLevel level cause).hku = s.hku.post s.now (.powerLevelChanged s.pu.level level cause s.pu.lastAverage) := rfl

/-! ### The end of a window (R161 to R163) -/

/-- The state in which the average of a window is classified. -/
def State.windowOver (s : State) : State :=
  { s with pu := { s.pu with
    grant := s.pu.requested.getD s.pu.grant, requested := none, lastAverage := s.pu.accumulator / 16, accumulator := 0,
    sampleCount := 0 } }

theorem State.endWindow_eq (s : State) : s.endWindow =
    if s.windowOver.pu.grant < s.windowOver.pu.lastAverage then s.windowOver.overWindow
    else if s.windowOver.pu.lastAverage ≤ underLimit s.windowOver.pu.grant then s.windowOver.underWindow
    else { s.windowOver with pu.overCount := 0, pu.underCount := 0 } := rfl

theorem State.overWindow_steps {s : State} (second : 2 ≤ s.pu.overCount + 1) (above : s.pu.level ≠ 0) :
    s.overWindow = s.stepLevel (s.pu.level - 1) .over := by
  rw [State.overWindow, if_neg (not_lt.mpr second), if_neg above]

theorem State.overWindow_lowest {s : State} (second : 2 ≤ s.pu.overCount + 1) (zero : s.pu.level = 0) :
    s.overWindow = { s with pu.overCount := 0, pu.underCount := 0 } := by
  rw [State.overWindow, if_neg (not_lt.mpr second), if_pos zero]

theorem State.overWindow_first {s : State} (first : s.pu.overCount + 1 < 2) :
    s.overWindow = { s with pu.overCount := s.pu.overCount + 1, pu.underCount := 0 } := if_pos first

theorem State.underWindow_steps {s : State} (eighth : 8 ≤ s.pu.underCount + 1) (below : s.pu.level < s.pu.ceiling) (free : s.pu.hold = 0) :
    s.underWindow = s.stepLevel (s.pu.level + 1) .under := if_pos ⟨Nat.min_eq_left eighth, below, free⟩

theorem State.underWindow_counts {s : State} (held : s.pu.underCount + 1 < 8 ∨ s.pu.ceiling ≤ s.pu.level ∨ s.pu.hold ≠ 0) :
    s.underWindow = { s with pu.overCount := 0, pu.underCount := min 8 (s.pu.underCount + 1) } := by
  refine if_neg fun ⟨eighth, below, free⟩ => ?_
  rcases held with few | top | hold
  · omega
  · exact absurd below (not_lt.mpr top)
  · exact hold free

section
variable (s : State)

theorem State.overWindow_only : s.PowerOnly s.overWindow := by
  unfold State.overWindow
  split
  · rfl
  · split <;> rfl

theorem State.underWindow_only : s.PowerOnly s.underWindow := by
  unfold State.underWindow
  dsimp only
  split <;> rfl

theorem State.endWindow_only : s.PowerOnly s.endWindow := by
  have classed : s.PowerOnly s.windowOver := rfl
  rw [State.endWindow_eq]
  split
  · exact classed.trans s.windowOver.overWindow_only
  · split
    · exact classed.trans s.windowOver.underWindow_only
    · rfl

/-- A window sets the level and the counts of over and under windows, and no other part of the power unit. -/
theorem State.overWindow_pu : ∃ level overs unders, s.overWindow.pu = { s.pu with level := level, overCount := overs, underCount := unders } := by
  unfold State.overWindow
  split
  · exact ⟨_, _, _, rfl⟩
  · split <;> exact ⟨_, _, _, rfl⟩

theorem State.underWindow_pu : ∃ level overs unders, s.underWindow.pu = { s.pu with level := level, overCount := overs, underCount := unders } := by
  unfold State.underWindow
  dsimp only
  split <;> exact ⟨_, _, _, rfl⟩

theorem State.endWindow_pu : ∃ level overs unders,
    s.endWindow.pu = { s.windowOver.pu with level := level, overCount := overs, underCount := unders } := by
  rw [State.endWindow_eq]
  split
  · exact s.windowOver.overWindow_pu
  · split
    · exact s.windowOver.underWindow_pu
    · exact ⟨_, _, _, rfl⟩

end

/-! ### A sample (R158) -/

/-- The state after the voltage test of a sample, its power added to the window. -/
def State.sampled (s : State) (r : MonitorReading) : State :=
  let z := s.testVoltage (min r.milliVolts 24000) (min r.milliAmps 8000)
  { z with pu.accumulator := z.pu.accumulator + samplePower r, pu.sampleCount := z.pu.sampleCount + 1 }

theorem State.sampled_pu (s : State) (r : MonitorReading) : (s.sampled r).pu = { s.pu with
    level := if min r.milliVolts 24000 < s.hku.settings.undervoltage then 0 else s.pu.level
    overCount := if min r.milliVolts 24000 < s.hku.settings.undervoltage then 0 else s.pu.overCount
    underCount := if min r.milliVolts 24000 < s.hku.settings.undervoltage then 0 else s.pu.underCount
    hold := if min r.milliVolts 24000 < s.hku.settings.undervoltage then 64 else s.pu.hold - 1
    accumulator := s.pu.accumulator + samplePower r
    sampleCount := s.pu.sampleCount + 1 } := by
  simp only [State.sampled, State.testVoltage_pu]

theorem State.takeSample_eq (s : State) (r : MonitorReading) :
    s.takeSample r = if (s.sampled r).pu.sampleCount = 16 then (s.sampled r).endWindow else s.sampled r := rfl

theorem State.sampled_only (s : State) (r : MonitorReading) : s.PowerOnly (s.sampled r) :=
  (s.testVoltage_only _ _).trans rfl

theorem State.takeSample_only (s : State) (r : MonitorReading) : s.PowerOnly (s.takeSample r) := by
  rw [State.takeSample_eq]
  split
  · exact (s.sampled_only r).trans (s.sampled r).endWindow_only
  · exact s.sampled_only r

end Sys2Proof.Machine

open Sys2Proof Sys2Proof.Machine

/-- Settles O45: each command is a taken record with its own effect. -/
theorem powerCommands : Obligations.PowerCommands := by
  unfold Obligations.PowerCommands
  intro t s r before taking value
  refine ⟨fun code => ?_, fun code large => ?_, fun ceiling code small above => ?_, fun ceiling code small below => ?_, fun code => ?_⟩
  · have clamped : min 20000 (max 500 (r.param 4)) = if value < 500 then 500 else if 20000 < value then 20000 else value := by
      have same : r.param 4 = value := rfl
      rw [same]
      split
      · omega
      · split <;> omega
    dsimp only [exec, execPowerGrant]
    refine State.takeRecord_eq before taking (by simp [code]) ?_
    rw [clamped]
  · dsimp only [exec, execPowerCeiling]
    exact State.takeRecord_eq before taking (by simp [code]) (if_neg (not_lt.mpr large))
  · obtain ⟨inside, same⟩ := Record.ceiling_eq small
    dsimp only [exec, execPowerCeiling]
    refine State.takeRecord_eq before taking (by simp [code]) ?_
    rw [if_pos inside, same, State.takeCeiling_above (by exact above)]
  · obtain ⟨inside, same⟩ := Record.ceiling_eq small
    dsimp only [exec, execPowerCeiling]
    refine State.takeRecord_eq before taking (by simp [code]) ?_
    rw [if_pos inside, same, State.takeCeiling_below (by exact below)]
  · dsimp only [exec, execSetAttentionMask]
    exact State.takeRecord_eq before taking (by simp [code]) rfl

/-- Settles O46: a sample is the voltage test, the sum, and at the sixteenth one of the cases of a window's end. -/
theorem powerSampled : Obligations.PowerSampled := by
  unfold Obligations.PowerSampled
  intro t s still due
  refine ⟨?_, fun v i => ?_⟩
  · dsimp only [exec, execPowerSample]
    rw [still]
    exact State.fire_eq (by simp [due]) rfl
  · let s' : State := { s with now := t, pu.nextSample := some (t + 1000) }
    refine ⟨s'.takeSample ⟨v, i⟩, ?_⟩
    intro mv ma low level overs unders hold sum grant average ends noted
    let y := s'.sampled ⟨v, i⟩
    have pu : y.pu = { s.pu with
        level := level, overCount := overs, underCount := unders, hold := hold, accumulator := sum,
        sampleCount := s.pu.sampleCount + 1, nextSample := some (t + 1000) } := s'.sampled_pu ⟨v, i⟩
    have hku : y.hku = noted := s'.testVoltage_hku mv ma
    have now : y.now = t := (s'.testVoltage_frame mv ma).1
    have only : s'.PowerOnly (s'.takeSample ⟨v, i⟩) := s'.takeSample_only ⟨v, i⟩
    have count : y.pu.sampleCount = s.pu.sampleCount + 1 := by rw [pu]
    have whole : s'.takeSample ⟨v, i⟩ = if y.pu.sampleCount = 16 then y.endWindow else y := s'.takeSample_eq ⟨v, i⟩
    have classed : y.windowOver.pu = { s.pu with
        level := level, overCount := overs, underCount := unders, hold := hold, accumulator := 0,
        sampleCount := 0, nextSample := some (t + 1000), grant := grant, requested := none, lastAverage := average } := by
      rw [State.windowOver, pu]
    have keeps : (s'.takeSample ⟨v, i⟩).pu.hold = hold ∧ (s'.takeSample ⟨v, i⟩).pu.ceiling = s.pu.ceiling ∧
        (s'.takeSample ⟨v, i⟩).pu.rail = s.pu.rail ∧ (s'.takeSample ⟨v, i⟩).pu.nextSample = some (t + 1000) := by
      rw [whole]
      split
      · obtain ⟨_, _, _, ended⟩ := y.endWindow_pu
        rw [ended, classed]
        exact ⟨rfl, rfl, rfl, rfl⟩
      · rw [pu]
        exact ⟨rfl, rfl, rfl, rfl⟩
    obtain ⟨held, ceiling, rail, next⟩ := keeps
    refine ⟨?_, ?_, congrArg State.ce only, fun ok => ?_, held, ceiling, rail, next, fun more => ?_, fun ends => ?_⟩
    · dsimp only [exec, execPowerSample]
      rw [still]
      exact State.fire_eq (by simp [due]) rfl
    · exact Eq.trans only (congrArg (fun c : Ce => ({ s with
        now := t, pu := (s'.takeSample ⟨v, i⟩).pu, ce := c, hku := (s'.takeSample ⟨v, i⟩).hku } : State)) (congrArg State.ce only).symm)
    · have before : s'.PowerOk := ok.of_eq rfl rfl rfl rfl rfl rfl rfl
      exact (before.takeSample _).paused
    · have stays : s'.takeSample ⟨v, i⟩ = y := whole.trans (if_neg fun full => more (count.symm.trans full))
      rw [stays]
      exact ⟨pu, hku⟩
    · have ended : s'.takeSample ⟨v, i⟩ = y.endWindow := whole.trans (if_pos (count.trans ends))
      obtain ⟨level', overs', unders', parts⟩ := y.endWindow_pu
      have atLevel : y.windowOver.pu.level = level := by rw [classed]
      have atOvers : y.windowOver.pu.overCount = overs := by rw [classed]
      have atUnders : y.windowOver.pu.underCount = unders := by rw [classed]
      have atGrant : y.windowOver.pu.grant = grant := by rw [classed]
      have atAverage : y.windowOver.pu.lastAverage = average := by rw [classed]
      have atCeiling : y.windowOver.pu.ceiling = s.pu.ceiling := by rw [classed]
      have atHold : y.windowOver.pu.hold = hold := by rw [classed]
      have atHku : y.windowOver.hku = noted := hku
      have atNow : y.windowOver.now = t := now
      have above (high : grant < average) : y.endWindow = y.windowOver.overWindow := by
        rw [State.endWindow_eq, atGrant, atAverage, if_pos high]
      have under (low : average ≤ grant - grant / 8) : y.endWindow = y.windowOver.underWindow := by
        rw [State.endWindow_eq, atGrant, atAverage, if_neg (by omega), if_pos (by exact low)]
      rw [ended]
      refine ⟨by rw [parts, classed], by rw [parts, classed], by rw [parts, classed], by rw [parts, classed], by rw [parts, classed],
        fun high second some_ => ?_, fun high second zero => ?_, fun high first => ?_, fun low high => ?_, fun low eighth room free => ?_,
        fun low held => ?_⟩
      · rw [above high, State.overWindow_steps (by rw [atOvers]; exact second) (by rw [atLevel]; exact some_), State.stepLevel_pu,
          State.stepLevel_hku, atLevel, atAverage, atHku, atNow]
        exact ⟨rfl, rfl, rfl, rfl⟩
      · rw [above high, State.overWindow_lowest (by rw [atOvers]; exact second) (by rw [atLevel]; exact zero)]
        exact ⟨atLevel.trans zero, rfl, rfl, atHku⟩
      · rw [above high, State.overWindow_first (by rw [atOvers]; exact first)]
        exact ⟨atLevel, congrArg (· + 1) atOvers, rfl, atHku⟩
      · rw [State.endWindow_eq, atGrant, atAverage, if_neg (by omega), if_neg (show ¬ average ≤ underLimit grant from not_le.mpr high)]
        exact ⟨atLevel, rfl, rfl, atHku⟩
      · rw [under low, State.underWindow_steps (by rw [atUnders]; exact eighth) (by rw [atLevel, atCeiling]; exact room)
          (by rw [atHold]; exact free), State.stepLevel_pu, State.stepLevel_hku, atLevel, atAverage, atHku, atNow]
        exact ⟨rfl, rfl, rfl, rfl⟩
      · rw [under low, State.underWindow_counts (by rw [atUnders, atLevel, atCeiling, atHold]; exact held)]
        exact ⟨atLevel, rfl, congrArg (fun n => min 8 (n + 1)) atUnders, atHku⟩

end

section
/-! SUPPORT. What the housekeeping client is granted (R172), and the bytes of the part half and of the status block (R86, R176). -/

namespace Sys2Proof.Machine

/-! ### The item that is due (R172) -/

section
variable {s : State}

theorem State.housekeepingDue_restart {step : RestartStep} {rest : List RestartStep} (work : s.hku.work = .restarting (step :: rest)) :
    s.housekeepingDue = some (.restart step) := by
  unfold State.housekeepingDue
  rw [work]

theorem State.housekeepingDue_report (free : ∀ step rest, s.hku.work ≠ .restarting (step :: rest)) :
    s.housekeepingDue = s.reportDue := by
  unfold State.housekeepingDue
  split
  · rename_i step rest work
    exact absurd work (free step rest)
  · rfl

theorem State.reportDue_entry {p : Posted} {rest : List Posted} (list : s.hku.writeList = p :: rest) :
    s.reportDue = some (.noticeEntry p) := by
  unfold State.reportDue
  rw [list]

theorem State.reportDue_producer (list : s.hku.writeList = []) (more : s.hku.noticeWritten ≠ s.hku.noticeShown) :
    s.reportDue = some .noticeProducer := by
  unfold State.reportDue
  simp only [list, if_pos more]

section
variable (list : s.hku.writeList = []) (shown : s.hku.noticeWritten = s.hku.noticeShown)
include list shown

theorem State.reportDue_partHalf {k : Fin 4} (slot : s.fcu.dueSlot = some k) : s.reportDue = some (.partHalf k) := by
  unfold State.reportDue
  simp only [list, shown, ne_eq, not_true_eq_false, if_false, slot]

variable (clean : s.fcu.dueSlot = none)
include clean

theorem State.reportDue_second {bytes : List Byte} (rest : s.hku.statusRest = some bytes) : s.reportDue = some (.statusSecond bytes) := by
  unfold State.reportDue
  simp only [list, shown, ne_eq, not_true_eq_false, if_false, clean, rest]

theorem State.reportDue_first (rest : s.hku.statusRest = none) (due : s.hku.statusDue = true) : s.reportDue = some .statusFirst := by
  unfold State.reportDue
  simp only [list, shown, ne_eq, not_true_eq_false, if_false, clean, rest, due, if_true]

theorem State.reportDue_command (rest : s.hku.statusRest = none) (due : s.hku.statusDue = false) : s.reportDue = s.hku.commandDue := by
  unfold State.reportDue
  simp only [list, shown, ne_eq, not_true_eq_false, if_false, clean, rest, due, Bool.false_eq_true]

end

/-- The first slot in index order that satisfies a test. -/
theorem allSlots_find?_first {p : Fin 4 → Bool} {k : Fin 4} (holds : p k = true) (first : ∀ j < k, p j = false) :
    allSlots.find? p = some k := by
  obtain ⟨as, bs, cut, before⟩ : ∃ as bs, allSlots = as ++ k :: bs ∧ ∀ j ∈ as, j < k := by
    fin_cases k
    · exact ⟨[], [1, 2, 3], rfl, by decide⟩
    · exact ⟨[0], [2, 3], rfl, by decide⟩
    · exact ⟨[0, 1], [3], rfl, by decide⟩
    · exact ⟨[0, 1, 2], [], rfl, by decide⟩
  exact List.find?_eq_some_iff_append.mpr ⟨holds, as, bs, cut, fun j mem => by rw [first j (before j mem)]; rfl⟩

theorem Fcu.dueSlot_first {f : Fcu} {k : Fin 4} (due : f.slots[k].headerDue = true) (first : ∀ j < k, f.slots[j].headerDue = false) :
    f.dueSlot = some k := allSlots_find?_first (by exact due) (by exact first)

theorem Fcu.dueSlot_none {f : Fcu} (clean : ∀ k : Fin 4, f.slots[k].headerDue = false) : f.dueSlot = none :=
  List.find?_eq_none.mpr fun k _ => by simpa [-Fin.getElem_fin] using clean k

theorem Hku.commandDue_table {h : Hku} {r : Record} (due : h.consumerDue = false) (work : h.work = .tableDue r) :
    h.commandDue = some (.layoutTable r) := by
  simp [Hku.commandDue, due, work]

theorem Hku.commandDue_record {h : Hku} (due : h.consumerDue = false) (work : h.work = .idle) (more : h.consumer ≠ h.latest) :
    h.commandDue = some .commandRecord := by
  simp [Hku.commandDue, due, work, more]

/-- A housekeeping grant with the port free makes the access that is due. -/
theorem State.housekeepingGrant_eq {t : Time} {u : State} {w : HousekeepingWork} (port : s.port = none) (scan : s.scanWaiting = none)
    (audio : s.au.waiting = []) (inbound : s.inboundWaiting = false) (motion : s.mu.pub.due = none) (due : s.housekeepingDue = some w)
    (makes : ({ s with now := t } : State).grantHousekeeping w = u) : execHousekeepingGrant t s = .next u.settle := by
  unfold execHousekeepingGrant
  rw [due]
  refine State.fire_eq ?_ makes
  simp [State.housekeepingMayGo, State.motionMayGo, State.audioMayGo, port, scan, audio, inbound, motion]

end

/-! ### The part half (R86) -/

theorem OutcomeFlags.code_eq (f : OutcomeFlags) : f.code = (if f.clampedX then 1 else 0) + (if f.clampedY then 2 else 0) +
    (if f.poseStale then 4 else 0) + (if f.repeated then 8 else 0) + (if f.noPose then 16 else 0) := by
  obtain ⟨a, b, c, d, e⟩ := f
  cases a <;> cases b <;> cases c <;> cases d <;> cases e <;> rfl

theorem OutcomeFlags.code_lt (f : OutcomeFlags) : f.code < 256 := by
  obtain ⟨a, b, c, d, e⟩ := f
  cases a <;> cases b <;> cases c <;> cases d <;> cases e <;> decide

theorem SlotState.code_lt (x : SlotState) : x.code < 256 := by cases x <;> decide

theorem SlotOutcome.code_lt (x : SlotOutcome) : x.code < 256 := by cases x <;> decide

theorem PartState.code_lt (x : PartState) : x.code < 256 := by cases x <;> decide

theorem LinkState.code_lt (x : LinkState) : x.code < 256 := by cases x <;> decide

theorem FlowState.code_lt (x : FlowState) : x.code < 256 := by cases x <;> decide

theorem DisplayState.code_lt (x : DisplayState) : x.code < 256 := by cases x <;> decide

theorem MotionState.code_lt (x : MotionState) : x.code < 256 := by cases x <;> decide

theorem PlaybackState.code_lt (x : PlaybackState) : x.code < 256 := by cases x <;> decide

theorem Slot.partHalf_length (x : Slot) : x.partHalf.length = 32 := by
  unfold Slot.partHalf signedBytes
  simp only [List.length_append, leBytes_length, List.length_replicate]

theorem Slot.partHalf_bytes (x : Slot) : fieldAt x.partHalf 0 1 = x.state.code ∧ fieldAt x.partHalf 1 1 = x.outcome.code ∧
    fieldAt x.partHalf 2 1 = x.flags.code ∧ fieldAt x.partHalf 3 1 = x.shown % 256 := by
  have state := Nat.mod_eq_of_lt x.state.code_lt
  have outcome := Nat.mod_eq_of_lt x.outcome.code_lt
  have flags := Nat.mod_eq_of_lt x.flags.code_lt
  simp [Slot.partHalf, List.append_assoc, fieldAt_number, fieldAt_behind, state, outcome, flags]

theorem Slot.partHalf_numbers (x : Slot) : wordAt x.partHalf 4 = x.firstShown ∧ halfAt x.partHalf 8 = BitVec.ofInt 16 x.shift.left ∧
    halfAt x.partHalf 10 = BitVec.ofInt 16 x.shift.right ∧ halfAt x.partHalf 12 = BitVec.ofInt 16 x.shift.vertical := by
  unfold Slot.partHalf signedBytes
  simp only [List.append_assoc]
  refine ⟨wordAt_number ?_, halfAt_number ?_, halfAt_number ?_, halfAt_number ?_⟩ <;> simp [fieldAt_number, fieldAt_behind]

theorem Slot.partHalf_tail (x : Slot) (n : Nat) (behind : 14 ≤ n) : fieldAt x.partHalf n 1 = 0 :=
  fieldAt_tail _ _ _ _ (by simpa only [signedBytes, List.length_append, leBytes_length] using behind)

/-! ### The status block (R176) -/

theorem Fcu.showingSlot_unique {f : Fcu} {k : Fin 4} (showing : f.slots[k].state = .showing)
    (alone : ∀ j : Fin 4, f.slots[j].state = .showing → j = k) : f.showingSlot = some k := by
  cases found : f.showingSlot with
  | none =>
    have dark := List.find?_eq_none.mp found k (mem_allSlots k)
    simp [-Fin.getElem_fin, showing] at dark
  | some j => rw [alone j (Fcu.showingSlot_some found)]

/-- The frame number of the SHOWING slot. -/
def State.shownFrame (s : State) : Nat :=
  (s.fcu.showingSlot.map fun k => (s.fcu.slots[k].half.map fun h => h.frameNumber.toNat).getD 0).getD 0

/-- The status block before the counters. -/
def State.statusHead (s : State) : List Byte :=
  leBytes 4 s.hku.statusCount.toNat ++ leBytes 4 s.now.toNat ++
    leBytes 1 s.hku.part.code ++ leBytes 1 s.tiu.link.code ++ leBytes 1 s.tiu.flow.code ++ leBytes 1 s.tiu.queue.length ++
    leBytes 1 (flagCode s.hku.layout.isSome) ++ leBytes 1 s.fcu.display.code ++ leBytes 1 (flagCode s.fcu.stopPending) ++
    leBytes 1 s.mu.motion.code ++
    leBytes 1 s.au.playback.code ++ leBytes 1 (flagCode s.au.capturing) ++
    leBytes 1 ((s.fcu.showingSlot.map Fin.val).getD 0xFF) ++ leBytes 1 s.pu.level.val ++
    leBytes 4 s.shownFrame ++ leBytes 4 s.pu.lastAverage ++ leBytes 4 s.pu.grant ++
    leBytes 1 s.pu.ceiling.val ++ leBytes 1 (flagCode s.ce.paused) ++ leBytes 2 (flagCode s.ce.jobs.head?.isSome) ++
    leBytes 4 ((s.ce.jobs.head?.map fun j => j.tag.toNat).getD 0) ++
    leBytes 4 ((s.ce.jobs.head?.map fun j => j.remaining s.ce.progress).getD 0)

/-- The counters of the status block, and the zeros behind them. -/
def Counters.block (c : Counters) : List Byte := (c.words.map fun w => leBytes 4 w.toNat).flatten ++ List.replicate 168 0

theorem State.statusFirst_eq (s : State) : s.statusFirst = s.statusHead ++ s.hku.counters.block := by
  have frame : s.shownFrame = match s.fcu.showingSlot with
      | some k => (s.fcu.slots[k].half.map fun h => h.frameNumber.toNat).getD 0
      | none => 0 := by
    unfold State.shownFrame
    cases s.fcu.showingSlot <;> rfl
  unfold State.statusHead Counters.block
  rw [frame, ← List.append_assoc]
  rfl

theorem State.statusHead_length (s : State) : s.statusHead.length = 44 := by
  unfold State.statusHead
  simp only [List.length_append, leBytes_length]

theorem Counters.words_length (c : Counters) : (c.words.map fun w => leBytes 4 w.toNat).flatten.length = 44 := by
  rw [length_flatten_of_length 4 _ (by simp), List.length_map]
  rfl

section
variable (s : State)

theorem State.statusFirst_length : s.statusFirst.length = 256 := by
  rw [State.statusFirst_eq, List.length_append, State.statusHead_length, Counters.block, List.length_append, Counters.words_length,
    List.length_replicate]

theorem State.statusFirst_head (off n : Nat) (fits : off + n ≤ 44) : fieldAt s.statusFirst off n = fieldAt s.statusHead off n := by
  rw [State.statusFirst_eq, fieldAt_append_left _ _ _ _ (by rw [State.statusHead_length]; exact fits)]

theorem State.statusFirst_tail (n : Nat) (behind : 88 ≤ n) : fieldAt s.statusFirst n 1 = 0 := by
  rw [State.statusFirst_eq, fieldAt_append_right _ _ _ _ (by rw [State.statusHead_length]; omega), State.statusHead_length]
  exact fieldAt_tail _ _ _ _ (by rw [Counters.words_length]; omega)

/-- A counter of the status block. -/
theorem State.statusFirst_counter (i : Nat) (w : Word) (at_ : s.hku.counters.words[i]? = some w) : wordAt s.statusFirst (44 + 4 * i) = w := by
  obtain ⟨inside, here⟩ := List.getElem?_eq_some_iff.mp at_
  have few : i < 11 := inside
  have entry := fieldAt_flatten 4 (s.hku.counters.words.map fun w => leBytes 4 w.toNat) (by simp) i (by simpa using inside) 0 4 (by decide)
  refine wordAt_number ?_
  rw [State.statusFirst_eq, fieldAt_append_right _ _ _ _ (by rw [State.statusHead_length]; omega), State.statusHead_length,
    Counters.block, fieldAt_append_left _ _ _ _ (by rw [Counters.words_length]; omega), show 44 + 4 * i - 44 = 4 * i + 0 by omega, entry]
  simp [here, fieldAt_leBytes]

/-- The counts and the states of the units, up to the SHOWING slot. -/
theorem State.statusHead_states : fieldAt s.statusHead 0 4 = s.hku.statusCount.toNat % 256 ^ 4 ∧
    fieldAt s.statusHead 4 4 = s.now.toNat % 256 ^ 4 ∧ fieldAt s.statusHead 8 1 = s.hku.part.code % 256 ∧
    fieldAt s.statusHead 9 1 = s.tiu.link.code % 256 ∧ fieldAt s.statusHead 10 1 = s.tiu.flow.code % 256 ∧
    fieldAt s.statusHead 11 1 = s.tiu.queue.length % 256 ∧ fieldAt s.statusHead 12 1 = flagCode s.hku.layout.isSome % 256 ∧
    fieldAt s.statusHead 13 1 = s.fcu.display.code % 256 ∧ fieldAt s.statusHead 14 1 = flagCode s.fcu.stopPending % 256 ∧
    fieldAt s.statusHead 15 1 = s.mu.motion.code % 256 ∧ fieldAt s.statusHead 16 1 = s.au.playback.code % 256 ∧
    fieldAt s.statusHead 17 1 = flagCode s.au.capturing % 256 := by
  unfold State.statusHead
  simp only [List.append_assoc]
  refine ⟨?_, ?_, ?_, ?_, ?_, ?_, ?_, ?_, ?_, ?_, ?_, ?_⟩ <;> simp [fieldAt_number, fieldAt_behind]

/-- The SHOWING slot, the power state and the job. -/
theorem State.statusHead_rest : fieldAt s.statusHead 18 1 = (s.fcu.showingSlot.map Fin.val).getD 0xFF % 256 ∧
    fieldAt s.statusHead 19 1 = s.pu.level.val % 256 ∧ fieldAt s.statusHead 20 4 = s.shownFrame % 256 ^ 4 ∧
    fieldAt s.statusHead 24 4 = s.pu.lastAverage % 4294967296 ∧ fieldAt s.statusHead 28 4 = s.pu.grant % 4294967296 ∧
    fieldAt s.statusHead 32 1 = s.pu.ceiling.val % 256 ∧ fieldAt s.statusHead 33 1 = flagCode s.ce.paused % 256 := by
  unfold State.statusHead
  simp only [List.append_assoc]
  refine ⟨?_, ?_, ?_, ?_, ?_, ?_, ?_⟩ <;> simp [fieldAt_number, fieldAt_behind]

theorem State.statusHead_job : fieldAt s.statusHead 34 1 = flagCode s.ce.jobs.head?.isSome % 256 ∧
    fieldAt s.statusHead 35 1 = flagCode s.ce.jobs.head?.isSome / 256 % 256 ∧
    fieldAt s.statusHead 36 2 = (s.ce.jobs.head?.map fun j => j.tag.toNat).getD 0 % 256 ^ 2 ∧
    fieldAt s.statusHead 38 2 = (s.ce.jobs.head?.map fun j => j.tag.toNat).getD 0 / 65536 % 65536 ∧
    fieldAt s.statusHead 40 4 = (s.ce.jobs.head?.map fun j => j.remaining s.ce.progress).getD 0 % 4294967296 := by
  unfold State.statusHead
  simp only [List.append_assoc]
  refine ⟨?_, ?_, ?_, ?_, ?_⟩ <;> simp [fieldAt_number, fieldAt_behind, fieldAt_leBytes]

end

end Sys2Proof.Machine

open Sys2Proof Sys2Proof.Machine

/-- Settles O47: each clause is the item that is due, and the bytes are read field by field. -/
theorem housekeepingGranted : Obligations.HousekeepingGranted := by
  unfold Obligations.HousekeepingGranted
  refine ⟨fun t s port scan audio inbound motion => ?_, fun x => ?_, fun s => ?_, rfl, rfl, rfl, rfl, rfl, rfl, rfl, rfl⟩
  · intro h granted quiet idle
    have report (q : quiet) : s.housekeepingDue = s.reportDue := State.housekeepingDue_report q.1
    have clean (q : quiet) : s.fcu.dueSlot = none := Fcu.dueSlot_none q.2.2.2
    have command (i : idle) : s.housekeepingDue = h.commandDue :=
      (report i.1).trans (State.reportDue_command i.1.2.1 i.1.2.2.1 (clean i.1) i.2.1 i.2.2)
    refine ⟨fun step rest work => ?_, fun p rest free list => ?_, fun free list more => ?_, fun k free list shown due first => ?_,
      fun bytes q rest => ?_, fun q rest due => ?_, fun i due => ?_, fun r i due work => ?_, fun i due work more => ?_⟩
    · exact State.housekeepingGrant_eq port scan audio inbound motion (State.housekeepingDue_restart work) rfl
    · exact State.housekeepingGrant_eq port scan audio inbound motion
        ((State.housekeepingDue_report free).trans (State.reportDue_entry list)) rfl
    · exact State.housekeepingGrant_eq port scan audio inbound motion
        ((State.housekeepingDue_report free).trans (State.reportDue_producer list more)) rfl
    · exact State.housekeepingGrant_eq port scan audio inbound motion
        ((State.housekeepingDue_report free).trans (State.reportDue_partHalf list shown (Fcu.dueSlot_first due first))) rfl
    · exact State.housekeepingGrant_eq port scan audio inbound motion
        ((report q).trans (State.reportDue_second q.2.1 q.2.2.1 (clean q) rest)) rfl
    · exact State.housekeepingGrant_eq port scan audio inbound motion
        ((report q).trans (State.reportDue_first q.2.1 q.2.2.1 (clean q) rest due)) rfl
    · exact State.housekeepingGrant_eq port scan audio inbound motion ((command i).trans (if_pos due)) rfl
    · exact State.housekeepingGrant_eq port scan audio inbound motion ((command i).trans (Hku.commandDue_table due work)) rfl
    · exact State.housekeepingGrant_eq port scan audio inbound motion ((command i).trans (Hku.commandDue_record due work more)) rfl
  · obtain ⟨state, outcome, flags, shown⟩ := x.partHalf_bytes
    obtain ⟨first, left, right, vertical⟩ := x.partHalf_numbers
    exact ⟨x.partHalf_length, state, outcome, flags.trans x.flags.code_eq, shown, first, left, right, vertical,
      fun n behind _ => x.partHalf_tail n behind⟩
  · intro b c flag
    obtain ⟨count, now, part, link, flow, queue, layout, display, stop, motion, playback, capturing⟩ := s.statusHead_states
    obtain ⟨slot, level, frame, average, grant, ceiling, paused⟩ := s.statusHead_rest
    obtain ⟨job, jobHigh, tag, tagHigh, remaining⟩ := s.statusHead_job
    have head (off n : Nat) (fits : off + n ≤ 44) : fieldAt b off n = fieldAt s.statusHead off n := s.statusFirst_head off n fits
    have bit (x : Bool) : flagCode x % 256 = flag x := by cases x <;> rfl
    have small {n : Nat} (lt : n < 256) : n % 256 = n := Nat.mod_eq_of_lt lt
    have counter (i : Nat) (w : Word) (at_ : c.words[i]? = some w) : wordAt b (44 + 4 * i) = w := s.statusFirst_counter i w at_
    refine ⟨s.statusFirst_length, wordAt_number ((head 0 4 (by decide)).trans count), wordAt_number ((head 4 4 (by decide)).trans now),
      ((head 8 1 (by decide)).trans part).trans (small s.hku.part.code_lt),
      ((head 9 1 (by decide)).trans link).trans (small s.tiu.link.code_lt),
      ((head 10 1 (by decide)).trans flow).trans (small s.tiu.flow.code_lt), (head 11 1 (by decide)).trans queue,
      ((head 12 1 (by decide)).trans layout).trans (bit _), ((head 13 1 (by decide)).trans display).trans (small s.fcu.display.code_lt),
      ((head 14 1 (by decide)).trans stop).trans (bit _), ((head 15 1 (by decide)).trans motion).trans (small s.mu.motion.code_lt),
      ((head 16 1 (by decide)).trans playback).trans (small s.au.playback.code_lt), ((head 17 1 (by decide)).trans capturing).trans (bit _),
      fun dark => ?_, fun k showing alone => ?_, ((head 19 1 (by decide)).trans level).trans (small (by omega)),
      (head 24 4 (by decide)).trans average, (head 28 4 (by decide)).trans grant,
      ((head 32 1 (by decide)).trans ceiling).trans (small (by omega)), ((head 33 1 (by decide)).trans paused).trans (bit _),
      fun empty => ?_, fun j rest jobs => ?_, ?_, ?_, counter 0 _ rfl, counter 1 _ rfl, counter 2 _ rfl, counter 3 _ rfl, counter 4 _ rfl,
      counter 5 _ rfl, counter 6 _ rfl, counter 7 _ rfl, counter 8 _ rfl, counter 9 _ rfl, counter 10 _ rfl,
      fun n behind _ => s.statusFirst_tail n behind⟩
    · have none_ : s.fcu.showingSlot = none := List.find?_eq_none.mpr fun k _ => by simpa [-Fin.getElem_fin] using dark k
      rw [head 18 1 (by decide), slot, head 20 4 (by decide), frame, State.shownFrame, none_]
      exact ⟨rfl, rfl⟩
    · have found : s.fcu.showingSlot = some k := Fcu.showingSlot_unique showing alone
      have shown : s.shownFrame = (s.fcu.slots[k].half.map fun h => h.frameNumber.toNat).getD 0 := by
        rw [State.shownFrame, found]
        rfl
      refine ⟨?_, fun blank => ?_, fun h half => wordAt_number ?_⟩
      · rw [head 18 1 (by decide), slot, found]
        exact small (k.isLt.trans (by decide))
      · rw [head 20 4 (by decide), frame, shown, blank]
        rfl
      · rw [head 20 4 (by decide), frame, shown, half]
        rfl
    · rw [head 34 1 (by decide), head 36 2 (by decide), head 40 4 (by decide), job, tag, remaining, empty]
      exact ⟨rfl, rfl, rfl⟩
    · have first : s.ce.jobs.head? = some j := by rw [jobs]; rfl
      rw [first] at job tag remaining
      exact ⟨(head 34 1 (by decide)).trans job, halfAt_number ((head 36 2 (by decide)).trans tag), (head 40 4 (by decide)).trans remaining⟩
    · rw [head 35 1 (by decide), jobHigh]
      cases s.ce.jobs.head?.isSome <;> rfl
    · rw [head 38 2 (by decide), tagHigh]
      cases s.ce.jobs.head? with
      | none => rfl
      | some j =>
        have low := j.tag.isLt
        simp only [Option.map_some, Option.getD_some]
        omega

/-- Settles O48: each completion by its kind of access. -/
theorem housekeepingWritten : Obligations.HousekeepingWritten := by
  unfold Obligations.HousekeepingWritten
  refine fun t s => ⟨fun still due => ?_, fun a port inside => ⟨fun p rest kind live list => ?_, fun written kind live => ?_,
    fun dead => ⟨fun kind => ?_, fun written kind => ?_⟩, fun kind => ?_, fun kind => ?_⟩, fun u position kind => ⟨fun up room => ?_, fun full => ?_⟩⟩
  · dsimp only [exec, execStatusTimerExpiry]
    rw [still]
    exact State.fire_eq (by simp [due]) rfl
  · dsimp only [exec, execNoticeEntryWriteDone]
    refine State.portDone_eq port inside () (by rw [kind]) ?_
    have waiting : (s.served t a).hku.writeList = p :: rest := list
    simp only [live, waiting]
    rfl
  · dsimp only [exec, execNoticeProducerWriteDone]
    exact State.portDone_eq port inside written (by rw [kind]) (if_pos live)
  · dsimp only [exec, execNoticeEntryWriteDone]
    exact State.portDone_eq port inside () (by rw [kind]) (by rw [dead])
  · dsimp only [exec, execNoticeProducerWriteDone]
    exact State.portDone_eq port inside written (by rw [kind]) (if_neg (by simp [dead]))
  · dsimp only [exec, execStatusBlockWriteDone]
    exact State.portDone_eq port inside () (by rcases kind with kind | kind <;> rw [kind]) rfl
  · dsimp only [exec, execCommandConsumerWriteDone]
    exact State.portDone_eq port inside () (by rw [kind]) rfl
  · exact if_pos ⟨up, room⟩
  · refine if_neg fun ⟨up, room⟩ => ?_
    rcases full with down | full
    · rw [down] at up
      exact absurd up (by decide)
    · exact absurd room (not_lt.mpr full)

end

section
/-! SUPPORT. The bounds of the picture's and the sound's arithmetic (R103, R111, R112, R116, R150). -/

namespace Sys2Proof.Machine

theorem clamp_bounds {low high : Int} (ordered : low ≤ high) (v : Int) : low ≤ clamp low high v ∧ clamp low high v ≤ high := by
  unfold clamp
  omega

/-- A half is rounded up in a division of a number that is not negative (R111). -/
theorem roundHalfUp_spec (n : Int) (d : Nat) (pos : 0 < d) :
    2 * ((2 * n + d) / (2 * d) * d - n) ≤ d ∧ -d < 2 * ((2 * n + d) / (2 * d) * d - n) := by
  have parts := Int.mul_ediv_add_emod (2 * n + d) (2 * d)
  have low := Int.emod_nonneg (2 * n + d) (show (2 * d : Int) ≠ 0 by omega)
  have high := Int.emod_lt_of_pos (2 * n + d) (show (0 : Int) < 2 * d by omega)
  generalize (2 * n + d) / (2 * d) = q at *
  have twice : 2 * (d : Int) * q = 2 * (q * d) := by ring
  rw [twice] at parts
  omega

theorem roundDiv_spec (n : Int) (d : Nat) (pos : 0 < d) :
    2 * |roundDiv n d * d - n| ≤ d ∧ (2 * |roundDiv n d * d - n| = d → |n| ≤ |roundDiv n d * d|) := by
  unfold roundDiv
  by_cases sign : 0 ≤ n
  · rw [if_pos sign]
    obtain ⟨upper, lower⟩ := roundHalfUp_spec n d pos
    generalize (2 * n + d) / (2 * d) * (d : Int) = m at *
    have near := abs_le.mpr (show -(d : Int) ≤ 2 * (m - n) ∧ 2 * (m - n) ≤ d by omega)
    rw [abs_mul, abs_two] at near
    refine ⟨near, fun tie => ?_⟩
    have above : n ≤ m := by
      by_contra below
      rw [abs_of_neg (by omega)] at tie
      omega
    rw [abs_of_nonneg sign, abs_of_nonneg (sign.trans above)]
    exact above
  · rw [if_neg sign, neg_mul]
    obtain ⟨upper, lower⟩ := roundHalfUp_spec (-n) d pos
    generalize (2 * -n + d) / (2 * d) * (d : Int) = m at *
    have near := abs_le.mpr (show -(d : Int) ≤ 2 * (-m - n) ∧ 2 * (-m - n) ≤ d by omega)
    rw [abs_mul, abs_two] at near
    refine ⟨near, fun tie => ?_⟩
    have below : -m ≤ n := by
      by_contra above
      rw [abs_of_pos (by omega)] at tie
      omega
    rw [abs_of_neg (by omega), abs_of_nonpos (by omega)]
    omega

/-- A sample scaled by a gain of at most 1 stays a sample (R150). -/
theorem scaled_bounds {v : Int} {gain : Nat} (low : -32768 ≤ v) (high : v ≤ 32767) (small : gain ≤ 32768) :
    -32768 ≤ v * gain / 32768 ∧ v * gain / 32768 ≤ 32767 := by
  have under : -32768 * 32768 ≤ v * (gain : Int) := by nlinarith
  have over_ : v * (gain : Int) ≤ 32767 * 32768 := by nlinarith
  omega

theorem half_toInt_ofInt {v : Int} (low : -32768 ≤ v) (high : v ≤ 32767) : (BitVec.ofInt 16 v).toInt = v := by
  rw [BitVec.toInt_ofInt]
  exact Int.bmod_eq_of_le (by norm_num; omega) (by norm_num; omega)

end Sys2Proof.Machine

open Sys2Proof Sys2Proof.Machine

/-- Settles O59: the clamps bound the shifts and the sum, and the rest is the arithmetic of the divisions. -/
theorem pictureAndSoundBounds : Obligations.PictureAndSoundBounds := by
  unfold Obligations.PictureAndSoundBounds
  refine ⟨fun c trims sx sy stale noPose base k => ?_, roundDiv_spec, fun c request cap room => ?_, fun main cue duck gain small => ?_⟩
  · intro x n
    obtain ⟨leftLow, leftHigh⟩ : -(c.guardX : Int) ≤ x.left ∧ x.left ≤ c.guardX := clamp_bounds (by omega) _
    obtain ⟨rightLow, rightHigh⟩ : -(c.guardX : Int) ≤ x.right ∧ x.right ≤ c.guardX := clamp_bounds (by omega) _
    obtain ⟨low, high⟩ : -(c.guardY : Int) ≤ x.vertical ∧ x.vertical ≤ c.guardY := clamp_bounds (by omega) _
    have left : n.columnLeft = (c.guardX + x.left).toNat := rfl
    have right : n.columnRight = (c.guardX + x.right).toNat := rfl
    have row : n.originRow = (c.guardY + x.vertical).toNat := rfl
    refine ⟨⟨leftLow, leftHigh⟩, ⟨rightLow, rightHigh⟩, ⟨low, high⟩, ?_, ?_, ?_⟩
    · rw [left, Settings.sourceWidth]
      omega
    · rw [right, Settings.sourceWidth]
      omega
    · rw [row, Settings.sourceHeight]
      omega
  · unfold litDuration
    split <;> omega
  · intro m sum
    have low : -32768 ≤ sum := le_max_left _ _
    have high : sum ≤ 32767 := max_le (by decide) (min_le_left _ _)
    obtain ⟨least, most⟩ := scaled_bounds low high small
    have whole : mixSample main.toInt cue.toInt duck gain = BitVec.ofInt 16 (sum * gain / 32768) := rfl
    rw [whole, half_toInt_ofInt least most]

end
